-- ==== Sys2Proof/Word.lean ====
section
/-! DEFINITION. The words, channels and duty windows that cross the block's edge (spec 00_scope R11, R13; 20_memory R41, R42). -/

namespace Sys2Proof

/-- One byte of a word that a transport carries as bytes (20_memory R43). -/
abbrev Byte := BitVec 8

/-- A command word or a response word: 32 bits (30_encoding R55, R67). -/
abbrev Word := BitVec 32

/-- A channel number of the PWM driver, 0..15 (00_scope R11, 20_memory R41). -/
abbrev Chan := Fin 16

/-- A tick of a window: the 13-bit values 0..4096 and no other (20_memory R42, 90_conflicts C3). -/
abbrev Tick := Fin 4097

/-- A duty-cycle window `(on, off)` (10_state R27, 20_memory R41). -/
structure Window where
  on  : Tick
  off : Tick
deriving DecidableEq, Repr, Inhabited

/-- What the environment answers to one `ChanWrite`: the draw `ok` of 41_energize R92, and with `ok = false` the
second draw, the window that the failed channel is left with (any window whatever). -/
inductive BusAnswer where
  /-- The write succeeds. -/
  | ok
  /-- The write fails and leaves the channel at `left`. -/
  | fail (left : Window)
deriving DecidableEq, Repr, Inhabited

end Sys2Proof
end

