-- ==== Sys2Proof/Config.lean ====
section
/-! DEFINITION. The elaboration parameters (00_scope R5 to R10), each with its law built in and otherwise open, and
the free values of the environment. An `opaque` constant here has no body: a claim proved about the model holds for
every value of it. -/

namespace Sys2Proof.Config

/-- `M` (MICROSTEPS): this hardware takes 8 (00_scope R5). -/
abbrev M : Nat := 8

/-- The two legal motor identities (00_scope R7). -/
inductive MotorId where
  | one
  | two
deriving DecidableEq, Repr, Inhabited

/-- `MOTOR_ID`, OPEN in {1,2} (00_scope R7). -/
opaque motorId : MotorId

/-- `S`, whole steps per revolution: OPEN, an integer >= 1 (00_scope R8, 92_eei_decisions D40). -/
opaque stepsPerRev : ℕ+

/-- The entries of CURVE that the source does not give: OPEN in [0,255] (00_scope R6, 92_eei_decisions D6). -/
opaque curveInterior : Nat → Byte

/-- `CURVE[i]`, `0 <= i <= M`: entries 0, 4 and 8 as the source fixes them, the others OPEN (00_scope R6).
Entries above `M` are never read (41_energize R84). -/
def curve : Nat → Byte
  | 0 => 0
  | 4 => 180
  | 8 => 255
  | i => curveInterior i

/-- The six channels of one stepper (00_scope R9). -/
structure Wiring where
  pwma : Chan
  ain2 : Chan
  ain1 : Chan
  pwmb : Chan
  bin2 : Chan
  bin1 : Chan
deriving DecidableEq, Repr

/-- Where the twelve stepper signals go: OPEN. The twelve channels are the images of 0..11 under a permutation of the
16 channels, and every assignment of twelve distinct channels is one of these, so the laws of 00_scope R9 hold by
construction and nothing else is assumed. -/
opaque wiringPerm : Equiv.Perm Chan

/-- The wiring table `W` (00_scope R9). -/
def wiringOf : MotorId → Wiring
  | .one => ⟨wiringPerm 0, wiringPerm 1, wiringPerm 2, wiringPerm 3, wiringPerm 4, wiringPerm 5⟩
  | .two => ⟨wiringPerm 6, wiringPerm 7, wiringPerm 8, wiringPerm 9, wiringPerm 10, wiringPerm 11⟩

/-- `W(MOTOR_ID)`, the wiring of this block. -/
def wiring : Wiring := wiringOf motorId

/-- `SPS0` is a quotient of two positive integers, both OPEN: any strictly positive rational (00_scope R10). -/
opaque sps0Num : ℕ+

/-- The denominator of `SPS0`. -/
opaque sps0Den : ℕ+

/-- `SPS0`, the value of SPS after reset, in seconds (00_scope R10, 92_eei_decisions D18). -/
def sps0 : Rat := ((sps0Num : Nat) : Rat) / ((sps0Den : Nat) : Rat)

/-- FREE VALUE: the window each channel holds at power-up, any value (10_state R27, 92_eei_decisions D37). -/
opaque powerUpWindow : Chan → Window

/-- FREE VALUE: the environment's answer to the `ChanWrite` number `n` of the machine's life, for every write that
the state's `busScript` does not list; no law is placed on it (41_energize R92). -/
opaque freeBusAnswer : Nat → BusAnswer

/-- The parameters as an integrator hands them over, before any check (60_exceptions R131). -/
structure RawParams where
  m       : Int
  curve   : List Int
  motorId : Int
  steps   : Int
  /-- `W(1)`: PWMA, AIN2, AIN1, PWMB, BIN2, BIN1. -/
  wiring1 : List Int
  /-- `W(2)`, in the same order. -/
  wiring2 : List Int
  sps0    : Rat
deriving DecidableEq, Repr

/-- A wiring as the list of its six channel numbers. -/
def Wiring.toList (w : Wiring) : List Int :=
  [w.pwma.val, w.ain2.val, w.ain1.val, w.pwmb.val, w.bin2.val, w.bin1.val]

/-- This block's own parameters, written as an integrator would hand them over. -/
def raw : RawParams where
  m       := M
  curve   := (List.range (M + 1)).map fun i => ((curve i).toNat : Int)
  motorId := match motorId with | .one => 1 | .two => 2
  steps   := (stepsPerRev : Nat)
  wiring1 := (wiringOf .one).toList
  wiring2 := (wiringOf .two).toList
  sps0    := sps0

end Sys2Proof.Config
end

