-- ==== Sys2Proof/Machine/State.lean ====
section
/-! DEFINITION. The machine's state as plain data: the five registers (10_state R20), the command in progress (R31), the
channel array (R27), what the block has put out (R17, R28), and the inputs that wait for it. -/

namespace Sys2Proof.Machine

/-- The stepping modes of the pseudocode (00_scope R18). -/
inductive Mode where
  | whole
  | double
  | interleave
  | micro
deriving DecidableEq, Repr

/-- The two kinds of trace event (10_state R28). -/
inductive Event where
  /-- One `ChanWrite` attempt: the channel and the window asked for. -/
  | write (ch : Chan) (w : Window)
  /-- One pace delay of at least `t` seconds (41_energize R89). -/
  | dwell (t : Rat)
deriving DecidableEq, Repr

/-- What the block puts out, in order: the events of the trace, and after each command's events its response word
(00_scope R17, 20_memory R49). -/
inductive Output where
  | event (e : Event)
  | response (w : Word)
deriving DecidableEq, Repr

/-- The physical steps that a command in progress has still to run after the current one. -/
inductive Loop where
  /-- None: the command has no loop of physical steps (SET_PIN). -/
  | finished
  /-- `n_left` more iterations of a counted command, each with dwell `t` (10_state R31, 42_stepping R100). -/
  | counted (mode : Mode) (rev : Bool) (t : Rat) (nLeft : Nat)
  /-- ALIGN_STEP: iterations until PHASE is 0 or M (42_stepping R105). -/
  | untilAligned (rev : Bool) (t : Rat)
deriving DecidableEq, Repr

/-- A command in progress (10_state R31): the point it has reached, as the events of the current iteration that are
still to come, oldest first, and the iterations after it. -/
structure InProgress where
  pending : List Event
  loop    : Loop
deriving DecidableEq, Repr

/-- A reset the host is about to give (70_reset_and_hazards R150, R152). -/
structure ResetInput where
  /-- How many more actions of the block (taking a command word, a wait, the start of a physical step, a write, a dwell,
  the response of a command that writes channels) begin before the reset strikes. -/
  after : Nat
  /-- What a `ChanWrite` that the reset cuts off leaves in its channel: any window. -/
  left  : Window
deriving DecidableEq, Repr

/-- The error kinds (60_exceptions R130). -/
inductive ErrorKind where
  /-- Raised when the block is elaborated, never by a command (60_exceptions R131). -/
  | invalidConfiguration
  /-- Raised by SET_PIN (60_exceptions R132). -/
  | invalidArgument
  /-- Raised by SET_SPEED (60_exceptions R133). -/
  | divisionFault
  /-- Raised by a `ChanWrite` that fails (60_exceptions R134). -/
  | busError
  /-- Raised by the decoder (60_exceptions R135). -/
  | illegalCommand
deriving DecidableEq, Repr

/-- The reasons the machine stops with a fault. There are none: every error of this hardware ends one command, is
reported in its response word, and leaves the block ready for the next (60_exceptions R137, R139). -/
inductive Fault where
deriving DecidableEq, Repr

/-- The reasons there is no step. -/
inductive Refusal where
  /-- Raised by `exec` for an instruction that has no meaning yet. Safe. No instruction of this model is one. -/
  | notModelled (mnemonic : String)
  /-- Raised by `step` where this block would run a command while the other block on the shared bus has one in
  progress: the spec admits no such run (20_memory R54, 70_reset_and_hazards R154). Safe. -/
  | overlappingCommands
deriving DecidableEq, Repr

/-- The whole state. -/
structure State where
  /-- `PHASE`, 5 bits for M = 8 (10_state R21). -/
  phase      : BitVec 5
  /-- `PWM_A`, the drive strength of coil channel A (10_state R22). -/
  pwmA       : BitVec 8
  /-- `PWM_B`, the drive strength of coil channel B (10_state R23). -/
  pwmB       : BitVec 8
  /-- `SPS`, the whole-step period in seconds, an exact rational (10_state R24). -/
  sps        : Rat
  /-- `FAULT`, the sticky first error code (10_state R25). -/
  fault      : BitVec 4
  /-- The command in progress; `none` while the block is idle (10_state R31). -/
  inProgress : Option InProgress
  /-- `CH[0..15]`, the channels of the external PWM driver (10_state R27). -/
  ch         : Vector Window 16
  /-- The trace and the response words, oldest first (10_state R28, 30_encoding R67). -/
  out        : List Output
  /-- Input: the bytes of command words the block has not taken yet, oldest first (20_memory R43, R44). -/
  rx         : List Byte
  /-- Input: the environment's answers to the `ChanWrite`s of this machine's life, by number, as far as they are
  listed (41_energize R92). The model's own field. -/
  busScript  : List BusAnswer
  /-- How many `ChanWrite`s have drawn an answer. The model's own field. -/
  busDraws   : Nat
  /-- Input: the reset the host is about to give, if any (70_reset_and_hazards R152). The model's own field. -/
  resetInput : Option ResetInput
  /-- Input: the other block on the shared bus has a command in progress (20_memory R54). The model's own field. -/
  otherBusy  : Bool
deriving DecidableEq, Repr

/-- The state after power-up and reset (70_reset_and_hazards R150): the registers as the spec gives them, the block
idle, an empty trace, each channel at an open power-up window, and no input waiting. -/
def State.reset : State where
  phase      := 0
  pwmA       := 255
  pwmB       := 255
  sps        := Config.sps0
  fault      := 0
  inProgress := none
  ch         := Vector.ofFn Config.powerUpWindow
  out        := []
  rx         := []
  busScript  := []
  busDraws   := 0
  resetInput := none
  otherBusy  := false

end Sys2Proof.Machine
end

