-- ==== Sys2Proof/Machine/Coils.lean ====
section
/-! DEFINITION. phase_table_mux: which coil-enable tuple a PHASE selects (41_energize R80 to R85). -/

namespace Sys2Proof.Machine

/-- A coil-enable tuple, in its order `[AIN2, BIN1, AIN1, BIN2]` (41_energize R81). -/
structure Coils where
  ain2 : Bool
  bin1 : Bool
  ain1 : Bool
  bin2 : Bool
deriving DecidableEq, Repr

/-- How many of the four signals are on (41_energize R94). -/
def Coils.active (c : Coils) : Nat := c.ain2.toNat + c.bin1.toNat + c.ain1.toNat + c.bin2.toNat

/-- How many of the four signals two tuples differ in (41_energize R94). -/
def Coils.changes (c d : Coils) : Nat :=
  (c.ain2 ^^ d.ain2).toNat + (c.bin1 ^^ d.bin1).toNat + (c.ain1 ^^ d.ain1).toNat + (c.bin2 ^^ d.bin2).toNat

/-- `PHASE_TABLE`: A, A+B, B, B+D, D, C+D, C, A+C (41_energize R80). -/
def phaseTable : Fin 8 → Coils
  | 0 => ⟨true,  false, false, false⟩
  | 1 => ⟨true,  true,  false, false⟩
  | 2 => ⟨false, true,  false, false⟩
  | 3 => ⟨false, true,  true,  false⟩
  | 4 => ⟨false, false, true,  false⟩
  | 5 => ⟨false, false, true,  true⟩
  | 6 => ⟨false, false, false, true⟩
  | 7 => ⟨true,  false, false, true⟩

/-- `MICRO_PAIR`: A+B, B+D, C+D, A+C (41_energize R85). -/
def microPair : Fin 4 → Coils
  | 0 => ⟨true,  true,  false, false⟩
  | 1 => ⟨false, true,  true,  false⟩
  | 2 => ⟨false, false, true,  true⟩
  | 3 => ⟨true,  false, false, true⟩

/-- `k = PHASE div (M div 2)`, the half-step index, 0..7 (41_energize R82, R90). -/
def halfStepIndex (phase : BitVec 5) : Nat := phase.toNat / (Config.M / 2)

/-- `q = PHASE div M`, the quadrant, 0..3 (41_energize R83). -/
def quadrant (phase : BitVec 5) : Nat := phase.toNat / Config.M

/-- `COILS_WHOLE()` (41_energize R82). -/
def coilsWhole (phase : BitVec 5) : Coils := phaseTable (Fin.ofNat 8 (halfStepIndex phase))

/-- `COILS_MICRO()` (41_energize R85). -/
def coilsMicro (phase : BitVec 5) : Coils := microPair (Fin.ofNat 4 (quadrant phase))

/-- The tuple that ENERGIZE drives (41_energize R88). -/
def coils (micro : Bool) (phase : BitVec 5) : Coils := if micro then coilsMicro phase else coilsWhole phase

end Sys2Proof.Machine
end

