-- ==== Sys2Proof/Machine/Flags.lean ====
section
/-! DEFINITION. FAULT, the status field and the response word (10_state R25, 30_encoding R67, 60_exceptions R130). The
block has no flags besides these (10_state R33). -/

namespace Sys2Proof.Machine

/-- The code of an error kind (60_exceptions R130). -/
def ErrorKind.code : ErrorKind → BitVec 4
  | .invalidConfiguration => 1
  | .invalidArgument      => 2
  | .divisionFault        => 3
  | .busError             => 4
  | .illegalCommand       => 5

/-- `if FAULT == 0 then FAULT <- c`: the first error is kept (60_exceptions R137). -/
def State.recordFault (c : BitVec 4) (s : State) : State :=
  { s with fault := if s.fault = 0 then c else s.fault }

/-- `PWM_B << 24 | PWM_A << 16 | PHASE << 8 | FAULT << 4 | status` (30_encoding R67). -/
def State.responseWord (status : BitVec 4) (s : State) : Word :=
  s.pwmB ++ s.pwmA ++ s.phase.zeroExtend 8 ++ s.fault ++ status

end Sys2Proof.Machine
end

