-- ==== Sys2Proof/Machine/Operands.lean ====
section
/-! DEFINITION. What the commands make of their operands: the iteration count (42_stepping R100), the direction
(30_encoding R61), the pace (40_speed R75, R76) and the pin and value checks (43_pin R120). -/

namespace Sys2Proof.Machine

/-- `max(count, 0)`: a count of 0 or less runs zero physical steps (42_stepping R100). -/
def iterations (count : Int) : Nat := count.toNat

/-- `max(count, 0) * M`, the microsteps of MICRO_STEP; the product is exact (42_stepping R104). -/
def microIterations (count : Int) : Nat := iterations count * Config.M

/-- `delta`: the distance `d`, negated when `rev = 1` (41_energize R90). -/
def signedDelta (rev : Bool) (d : Nat) : Int := if rev then -(d : Int) else d

/-- `60 / (S * rpm)` seconds, exact (40_speed R75). -/
def paceOfRpm (rpm : Nat) : Rat := 60 / (((Config.stepsPerRev : Nat) * rpm : Nat) : Rat)

/-- The dwell of STEP and of DOUBLE_STEP: `SPS` (40_speed R76). -/
def wholeDwell (s : State) : Rat := s.sps

/-- The dwell of INTERLEAVED_STEP: `SPS / 2` (40_speed R76). -/
def halfDwell (s : State) : Rat := s.sps / 2

/-- The dwell of MICRO_STEP and of ALIGN_STEP: `SPS / M` (40_speed R76). -/
def microDwell (s : State) : Rat := s.sps / (Config.M : Rat)

/-- `pin > 15 or value > 1` (43_pin R120). -/
def badPinArgument (pin value : Nat) : Bool := decide (pin > 15 ∨ value > 1)

/-- A legal pin as a channel number. -/
def pinChan (pin : Nat) : Chan := Fin.ofNat 16 pin

end Sys2Proof.Machine
end

