-- ==== Sys2Proof/Machine/Ops.lean ====
section
/-! DEFINITION. The named operations the commands are built from: channel access, the response, taking an error
(the block's whole "trap entry"), the primitives of 41_energize, and running a command in progress. -/

namespace Sys2Proof.Machine

/-! ### Channels and output -/

/-- `CH[c]`. No command reads a channel (20_memory R41); claims do. -/
def State.chan (s : State) (c : Chan) : Window := s.ch[c]

/-- `CH[c] <- w`: both ticks of one channel together (20_memory R45). -/
def State.setChan (c : Chan) (w : Window) (s : State) : State := { s with ch := s.ch.set c w }

/-- Appends one event to the trace (00_scope R16). -/
def State.emit (e : Event) (s : State) : State := { s with out := s.out ++ [.event e] }

/-- Makes `p` the command in progress. -/
def State.setProgress (p : Option InProgress) (s : State) : State := { s with inProgress := p }

/-- The environment's answer to `ChanWrite` number `n`: the listed one, or a free value (41_energize R92). -/
def State.answerAt (s : State) (n : Nat) : BusAnswer := (s.busScript[n]?).getD (Config.freeBusAnswer n)

/-- One answer drawn. -/
def State.countDraw (s : State) : State := { s with busDraws := s.busDraws + 1 }

/-! ### The end of a command -/

/-- `respond(status)`: ends the command and sends its response word (00_scope R16, 30_encoding R67). -/
def respond (status : BitVec 4) (s : State) : State :=
  { s with inProgress := none, out := s.out ++ [.response (s.responseWord status)] }

/-- `raise E`: stops the command, records the first error in FAULT, and responds with the error's code
(60_exceptions R137). There is no handler, no saved address and no mode to change, and so no return from it: the block
is idle afterwards and takes the next command (60_exceptions R139). -/
def raise (e : ErrorKind) (s : State) : State := respond e.code (s.recordFault e.code)

/-! ### Reset -/

/-- The channel of the write that a command in progress makes next. -/
def State.writeInFlight (s : State) : Option Chan :=
  match s.inProgress with
  | some ⟨.write c _ :: _, _⟩ => some c
  | _ => none

/-- Reset (70_reset_and_hazards R150 to R152): a command in progress is abandoned with no response, the write it was
making leaves its channel at `left`, no other channel changes, and all else takes its reset value. The environment's
own inputs go on. -/
def resetNow (left : Window) (s : State) : State :=
  { State.reset with
    ch := match s.writeInFlight with
      | some c => s.ch.set c left
      | none   => s.ch
    busScript := s.busScript
    busDraws  := s.busDraws
    otherBusy := s.otherBusy }

/-! ### The primitives of 41_energize -/

/-- The distance `d` of one phase advance, by the parity of `k` (41_energize R90). -/
def stepDistance (mode : Mode) (k : Nat) : Nat :=
  match mode with
  | .whole      => if k % 2 = 0 then Config.M else Config.M / 2
  | .double     => if k % 2 = 1 then Config.M else Config.M / 2
  | .interleave => Config.M / 2
  | .micro      => 1

/-- `(PHASE + delta) mod (4*M)` (41_energize R90). -/
def advancePhase (mode : Mode) (rev : Bool) (phase : BitVec 5) : BitVec 5 :=
  BitVec.ofInt 5
    (((phase.toNat : Int) + signedDelta rev (stepDistance mode (halfStepIndex phase))) % (4 * Config.M : Nat))

/-- `ADVANCE(mode, rev)` (41_energize R90). -/
def advance (mode : Mode) (rev : Bool) (s : State) : State :=
  { s with phase := advancePhase mode rev s.phase }

/-- The drive strengths `(PWM_A, PWM_B)` that INTERP gives at phase `s` (41_energize R84). -/
def interpolate (s : Nat) : Byte × Byte :=
  if s < Config.M then (Config.curve (Config.M - s), Config.curve s)
  else if s < 2 * Config.M then (Config.curve (s - Config.M), Config.curve (2 * Config.M - s))
  else if s < 3 * Config.M then (Config.curve (3 * Config.M - s), Config.curve (s - 2 * Config.M))
  else (Config.curve (s - 3 * Config.M), Config.curve (4 * Config.M - s))

/-- `INTERP()` (41_energize R84). -/
def interp (s : State) : State :=
  { s with pwmA := (interpolate s.phase.toNat).1, pwmB := (interpolate s.phase.toNat).2 }

/-- `PWM_A <- 255; PWM_B <- 255`, at the entry of the full-strength commands (42_stepping R100). -/
def fullStrength (s : State) : State := { s with pwmA := 255, pwmB := 255 }

/-- The window `(0, 16*p)` of a drive strength (41_energize R86). -/
def dutyWindow (p : Byte) : Window := ⟨0, ⟨16 * p.toNat, by have := p.isLt; omega⟩⟩

/-- The pin windows: high is "on from tick 0, never off", low is "never on, off from tick 0" (41_energize R87). -/
def pinWindow (v : Bool) : Window := if v then ⟨4096, 0⟩ else ⟨0, 4096⟩

/-- `DUTY(ch, p)` (41_energize R86). -/
def duty (c : Chan) (p : Byte) : Event := .write c (dutyWindow p)

/-- `PinWrite(ch, v)` (41_energize R87). -/
def pinWrite (c : Chan) (v : Bool) : Event := .write c (pinWindow v)

/-- `ENERGIZE(micro)`: the two duty writes and then the four pin writes, in this order (41_energize R88). -/
def energize (micro : Bool) (s : State) : List Event :=
  let c := coils micro s.phase
  [ duty Config.wiring.pwma s.pwmA,
    duty Config.wiring.pwmb s.pwmB,
    pinWrite Config.wiring.ain2 c.ain2,
    pinWrite Config.wiring.bin1 c.bin1,
    pinWrite Config.wiring.ain1 c.ain1,
    pinWrite Config.wiring.bin2 c.bin2 ]

/-- The register part of one physical step: ADVANCE, and INTERP in microstep mode (41_energize R91). -/
def stepRegisters (mode : Mode) (rev : Bool) (s : State) : State :=
  if mode = .micro then interp (advance mode rev s) else advance mode rev s

/-- The seven events of one physical step, from the registers it has set (41_energize R91, R96). -/
def stepEvents (mode : Mode) (t : Rat) (s : State) : List Event :=
  energize (mode = .micro) s ++ [.dwell t]

/-- `ChanWrite(ch, on, off)`: the event, then by the environment's answer the new window, or any window and a
BusError (41_energize R92). -/
def chanWrite (c : Chan) (w : Window) (s : State) : State :=
  match s.answerAt s.busDraws with
  | .ok        => (s.emit (.write c w)).countDraw.setChan c w
  | .fail left => raise .busError ((s.emit (.write c w)).countDraw.setChan c left)

/-- One event takes place. A dwell only adds its event: time is a lower bound and the model keeps no clock
(41_energize R89). -/
def perform (e : Event) (s : State) : State :=
  match e with
  | .write c w => chanWrite c w s
  | .dwell t   => s.emit (.dwell t)

/-! ### A command in progress -/

/-- The next physical step the loop asks for at this PHASE (its mode, direction and dwell, and the loop after it), or
none when the loop is over; it is tested before every physical step (42_stepping R100, R105). -/
def Loop.next (phase : BitVec 5) : Loop → Option (Mode × Bool × Rat × Loop)
  | .finished => none
  | .counted _ _ _ 0 => none
  | .counted mode rev t (n + 1) => some (mode, rev, t, .counted mode rev t n)
  | .untilAligned rev t =>
    if phase.toNat = 0 ∨ phase.toNat = Config.M then none else some (.micro, rev, t, .untilAligned rev t)

/-- `ITERATE(mode, rev, t)` begins: the registers change, and the seven events are to come (41_energize R91). -/
def beginStep (mode : Mode) (rev : Bool) (t : Rat) (loop : Loop) (s : State) : State :=
  (stepRegisters mode rev s).setProgress (some ⟨stepEvents mode t (stepRegisters mode rev s), loop⟩)

/-- Between two physical steps: the next one begins, or the loop is over and the command responds with status 0
(42_stepping R100, R105). -/
def continueLoop (loop : Loop) (s : State) : State :=
  match loop.next s.phase with
  | some (mode, rev, t, loop') => beginStep mode rev t loop' s
  | none => respond 0 s

/-- One action of a command in progress: its next event, or, when the current physical step has made all of its
events, what the loop says. -/
def act (s : State) : State :=
  match s.inProgress with
  | none => s
  | some p =>
    match p.pending with
    | e :: rest => perform e (s.setProgress (some ⟨rest, p.loop⟩))
    | [] => continueLoop p.loop s

/-- One action of the block begins: a reset still to come is one action nearer (70_reset_and_hazards R152). -/
def State.countAction (s : State) : State :=
  match s.resetInput with
  | some ⟨n + 1, left⟩ => { s with resetInput := some ⟨n, left⟩ }
  | _ => s

/-- One action of the block, unless a reset strikes first (70_reset_and_hazards R152). `a` is the action. -/
def orReset (a : State → State) (s : State) : State :=
  match s.resetInput with
  | some ⟨0, left⟩ => resetNow left s
  | _ => a s.countAction

/-- One action of the command in progress, or the reset. -/
def tick (s : State) : State := orReset act s

/-- Runs a command in progress for at most `fuel` actions, and stops when it has ended. -/
def runTicks : Nat → State → State
  | 0, s => s
  | fuel + 1, s =>
    match s.inProgress with
    | none => s
    | some _ => runTicks fuel (tick s)

/-- A bound on the physical steps of a loop: `n_left`, or 4*M for ALIGN_STEP, which needs fewer (42_stepping R107). -/
def Loop.bound : Loop → Nat
  | .finished => 0
  | .counted _ _ _ n => n
  | .untilAligned _ _ => 4 * Config.M

/-- A bound on the actions of a command in progress: eight for each physical step, and the response. -/
def InProgress.actions (p : InProgress) : Nat := p.pending.length + 8 * p.loop.bound + 1

/-- Runs the command in progress to completion, to its first error or to a reset (00_scope R17, 42_stepping R100). -/
def runToEnd (s : State) : State :=
  match s.inProgress with
  | none => s
  | some p => runTicks p.actions s

/-- Runs a command that makes the events `pending` and then the physical steps of `loop`. -/
def runCommand (pending : List Event) (loop : Loop) (s : State) : State :=
  runToEnd (s.setProgress (some ⟨pending, loop⟩))

end Sys2Proof.Machine
end

