-- ==== Sys2Proof/Machine/Pace.lean ====
section
/-! DEFINITION. SET_SPEED (40_speed R75). -/

namespace Sys2Proof.Machine

/-- `SPS <- t`. -/
def State.setPace (t : Rat) (s : State) : State := { s with sps := t }

/-- SET_SPEED: DivisionFault for `rpm = 0`, else `SPS <- 60 / (S * rpm)` (40_speed R75). -/
def execSetSpeed (rpm : Nat) (s : State) : Host.Outcome State Fault Refusal :=
  .next (if rpm = 0 then raise .divisionFault s else respond 0 (s.setPace (paceOfRpm rpm)))

end Sys2Proof.Machine
end

