-- ==== Sys2Proof/Machine/Pin.lean ====
section
/-! DEFINITION. SET_PIN (43_pin R120). -/

namespace Sys2Proof.Machine

/-- SET_PIN: InvalidArgument before any write, else one `PinWrite` and the response (43_pin R120). -/
def execSetPin (pin value : Nat) (s : State) : Host.Outcome State Fault Refusal :=
  .next (if badPinArgument pin value then raise .invalidArgument s
    else runCommand [pinWrite (pinChan pin) (value = 1)] .finished s)

end Sys2Proof.Machine
end

