-- ==== Sys2Proof/Machine/Status.lean ====
section
/-! DEFINITION. GET_STATUS (44_status R125). -/

namespace Sys2Proof.Machine

/-- GET_STATUS: reports the state and changes nothing (44_status R125). -/
def execGetStatus (s : State) : Host.Outcome State Fault Refusal := .next (respond 0 s)

end Sys2Proof.Machine
end

