-- ==== Sys2Proof/Machine/Stepping.lean ====
section
/-! DEFINITION. The five stepping commands (42_stepping R100 to R105). The dwell is computed once, at entry. -/

namespace Sys2Proof.Machine

/-- STEP (42_stepping R101). -/
def execStep (count : Int) (rev : Bool) (s : State) : Host.Outcome State Fault Refusal :=
  .next (runCommand [] (.counted .whole rev (wholeDwell s) (iterations count)) (fullStrength s))

/-- DOUBLE_STEP (42_stepping R102). -/
def execDoubleStep (count : Int) (rev : Bool) (s : State) : Host.Outcome State Fault Refusal :=
  .next (runCommand [] (.counted .double rev (wholeDwell s) (iterations count)) (fullStrength s))

/-- INTERLEAVED_STEP (42_stepping R103). -/
def execInterleavedStep (count : Int) (rev : Bool) (s : State) : Host.Outcome State Fault Refusal :=
  .next (runCommand [] (.counted .interleave rev (halfDwell s) (iterations count)) (fullStrength s))

/-- MICRO_STEP: it does not set the drive strengths at entry (42_stepping R104). -/
def execMicroStep (count : Int) (rev : Bool) (s : State) : Host.Outcome State Fault Refusal :=
  .next (runCommand [] (.counted .micro rev (microDwell s) (microIterations count)) s)

/-- ALIGN_STEP (42_stepping R105). -/
def execAlignStep (rev : Bool) (s : State) : Host.Outcome State Fault Refusal :=
  .next (runCommand [] (.untilAligned rev (microDwell s)) s)

end Sys2Proof.Machine
end

