-- ==== Sys2Proof/Syntax.lean ====
section
/-! DEFINITION. The command set: one constructor per row of spec/opcode_table.json (30_encoding R57). Operands are the
integers of 30_encoding R58 to R61. -/

namespace Sys2Proof

/-- A command of the block. `rev = true` is reverse (30_encoding R61). -/
inductive Instr where
  /-- `GET_STATUS` (44_status R125). -/
  | getStatus
  /-- `SET_SPEED rpm` (40_speed R75). -/
  | setSpeed (rpm : Nat)
  /-- `STEP count, dir` (42_stepping R101). -/
  | step (count : Int) (rev : Bool)
  /-- `DOUBLE_STEP count, dir` (42_stepping R102). -/
  | doubleStep (count : Int) (rev : Bool)
  /-- `INTERLEAVED_STEP count, dir` (42_stepping R103). -/
  | interleavedStep (count : Int) (rev : Bool)
  /-- `MICRO_STEP count, dir` (42_stepping R104). -/
  | microStep (count : Int) (rev : Bool)
  /-- `ALIGN_STEP dir` (42_stepping R105). -/
  | alignStep (rev : Bool)
  /-- `SET_PIN pin, value` (43_pin R120). -/
  | setPin (pin value : Nat)
deriving DecidableEq, Repr

end Sys2Proof
end

