-- ==== Sys2Proof/Machine/Dispatch.lean ====
section
/-! DEFINITION. One arm per command. -/

namespace Sys2Proof.Machine

def exec (i : Instr) (s : State) : Host.Outcome State Fault Refusal :=
  match i with
  | .getStatus => Sys2Proof.Machine.execGetStatus s
  | .setSpeed rpm => Sys2Proof.Machine.execSetSpeed rpm s
  | .step count rev => Sys2Proof.Machine.execStep count rev s
  | .doubleStep count rev => Sys2Proof.Machine.execDoubleStep count rev s
  | .interleavedStep count rev => Sys2Proof.Machine.execInterleavedStep count rev s
  | .microStep count rev => Sys2Proof.Machine.execMicroStep count rev s
  | .alignStep rev => Sys2Proof.Machine.execAlignStep rev s
  | .setPin pin value => Sys2Proof.Machine.execSetPin pin value s

end Sys2Proof.Machine
end

