-- ==== Sys2Proof/WellFormed.lean ====
section
/-! DEFINITION. Which commands have an encoding: every operand inside its field's range (30_encoding R58 to R60, and the
assembler's refusal of R68). -/

namespace Sys2Proof

/-- `count` is a signed 16-bit integer (30_encoding R58). -/
def countInRange (count : Int) : Bool := decide (-32768 ≤ count ∧ count ≤ 32767)

/-- `rpm` is an unsigned 16-bit integer (30_encoding R59). -/
def rpmInRange (rpm : Nat) : Bool := decide (rpm ≤ 65535)

/-- `pin` and `value` are unsigned 8-bit integers; the legal pins and values are fewer, and the command checks those
itself (30_encoding R60, 43_pin R120). -/
def byteInRange (v : Nat) : Bool := decide (v ≤ 255)

/-- Every operand of the command fits its field. -/
def WellFormed : Instr → Bool
  | .getStatus           => true
  | .setSpeed rpm        => rpmInRange rpm
  | .step c _            => countInRange c
  | .doubleStep c _      => countInRange c
  | .interleavedStep c _ => countInRange c
  | .microStep c _       => countInRange c
  | .alignStep _         => true
  | .setPin p v          => byteInRange p && byteInRange v

end Sys2Proof
end

