-- ==== Sys2Proof/Decode.lean ====
section
/-! DEFINITION. The decoder of 30_encoding R66, total on every word and on every list of bytes, and after it the encoder
of the five formats of R56. -/

namespace Sys2Proof

/-- Why bytes decode to no command. -/
inductive Reject where
  /-- Opcode 0x8 to 0xF: reserved, whatever the other bits hold (30_encoding R63). -/
  | reservedOpcode
  /-- A 1 in a bit that the opcode's format marks "must be 0" (30_encoding R62). -/
  | mustBeZero
  /-- Fewer than four bytes: no command yet (20_memory R44). -/
  | partialWord
deriving DecidableEq, Repr

/-- The opcode field `op = w[3:0]` (30_encoding R57). -/
def opField (w : Word) : BitVec 4 := w.extractLsb 3 0

/-- `w[31:16]`, the field of `rpm` and of `count` (30_encoding R56). -/
def highField (w : Word) : BitVec 16 := w.extractLsb 31 16

/-- `count = sext_16(w[31:16])` (30_encoding R58). -/
def countField (w : Word) : Int := (highField w).toInt

/-- `rpm = zext_16(w[31:16])` (30_encoding R59). -/
def rpmField (w : Word) : Nat := (highField w).toNat

/-- `rev = w[4]` (30_encoding R61). -/
def revField (w : Word) : Bool := w.getLsbD 4

/-- `pin = zext_8(w[15:8])` (30_encoding R60). -/
def pinField (w : Word) : Nat := (w.extractLsb 15 8).toNat

/-- `value = zext_8(w[23:16])` (30_encoding R60). -/
def valueField (w : Word) : Nat := (w.extractLsb 23 16).toNat

/-- A command whose must-be-zero bits are all 0, or the rejection of R62. -/
def requireZero (zero : Bool) (i : Instr) : Except Reject Instr :=
  if zero then .ok i else .error .mustBeZero

/-- `decode(w)` of 30_encoding R66. -/
def decodeWord (w : Word) : Except Reject Instr :=
  match (opField w).toNat with
  | 0x0 => requireZero (w.extractLsb 31 4 = 0) .getStatus
  | 0x1 => requireZero (w.extractLsb 15 4 = 0) (.setSpeed (rpmField w))
  | 0x2 => requireZero (w.extractLsb 15 5 = 0) (.step (countField w) (revField w))
  | 0x3 => requireZero (w.extractLsb 15 5 = 0) (.doubleStep (countField w) (revField w))
  | 0x4 => requireZero (w.extractLsb 15 5 = 0) (.interleavedStep (countField w) (revField w))
  | 0x5 => requireZero (w.extractLsb 15 5 = 0) (.microStep (countField w) (revField w))
  | 0x6 => requireZero (w.extractLsb 31 5 = 0) (.alignStep (revField w))
  | 0x7 => requireZero (w.extractLsb 31 24 = 0 && w.extractLsb 7 4 = 0) (.setPin (pinField w) (valueField w))
  | _   => .error .reservedOpcode

/-- The first whole word of a byte stream, little-endian, and the bytes after it; none while fewer than four bytes
are there (20_memory R43, R44). -/
def takeWord : List Byte → Option (Word × List Byte)
  | b0 :: b1 :: b2 :: b3 :: rest => some (b3 ++ b2 ++ b1 ++ b0, rest)
  | _ => none

/-- The four bytes that carry a word, first byte first (20_memory R43). -/
def wordBytes (w : Word) : List Byte :=
  [w.extractLsb 7 0, w.extractLsb 15 8, w.extractLsb 23 16, w.extractLsb 31 24]

/-- The decoder on bytes: a command and the bytes after it, or the reason there is none. -/
def decode (bs : List Byte) : Except Reject (Instr × List Byte) :=
  match takeWord bs with
  | none => .error .partialWord
  | some (w, rest) =>
    match decodeWord w with
    | .ok i => .ok (i, rest)
    | .error r => .error r

/-- Format S: `count`, eleven zero bits, `rev`, `op` (30_encoding R56). -/
def formatS (count : Int) (rev : Bool) (op : BitVec 4) : Word :=
  BitVec.ofInt 16 count ++ 0#11 ++ BitVec.ofBool rev ++ op

/-- The word of a command, by the formats of 30_encoding R56 and the opcodes of R57. -/
def encode : Instr → Word
  | .getStatus             => 0#28 ++ 0x0#4
  | .setSpeed rpm          => BitVec.ofNat 16 rpm ++ 0#12 ++ 0x1#4
  | .step c rev            => formatS c rev 0x2#4
  | .doubleStep c rev      => formatS c rev 0x3#4
  | .interleavedStep c rev => formatS c rev 0x4#4
  | .microStep c rev       => formatS c rev 0x5#4
  | .alignStep rev         => 0#27 ++ BitVec.ofBool rev ++ 0x6#4
  | .setPin pin value      => 0#8 ++ BitVec.ofNat 8 value ++ BitVec.ofNat 8 pin ++ 0#4 ++ 0x7#4

/-- The assembler: the word of a command, refused where an operand is outside its field (30_encoding R68). -/
def assemble (i : Instr) : Option Word := if WellFormed i then some (encode i) else none

/-- The pseudo-instruction `NOP` (30_encoding R69). -/
def nop : Instr := .getStatus

/-- A counted stepping command written without a direction is forward (30_encoding R69). -/
def forward (command : Int → Bool → Instr) (count : Int) : Instr := command count false

/-- `ALIGN_STEP` written without a direction is forward (30_encoding R69). -/
def alignForward : Instr := .alignStep false

/-- The word that the opcode table's numbering writes as `w`: its low `nbits` bits, every bit above them 0. -/
def tableWord (nbits w : Nat) : Word := BitVec.ofNat 32 (w % 2 ^ nbits)

/-- What the decoder reads from a table word laid out as its four bytes. -/
def decodeTableWord (nbits w : Nat) : Option Instr :=
  match decode (wordBytes (tableWord nbits w)) with
  | .ok (i, _) => some i
  | .error _ => none

end Sys2Proof
end

