-- ==== Sys2Proof/Machine/Fetch.lean ====
section
/-! DEFINITION. Where the next command word comes from: the bytes the host has delivered (00_scope R17, 10_state R30,
20_memory R43, R44). -/

namespace Sys2Proof.Machine

/-- The next command word and the state that has taken its four bytes; none while no whole word is there. -/
def State.fetch (s : State) : Option (Word × State) :=
  match takeWord s.rx with
  | none => none
  | some (w, rest) => some (w, { s with rx := rest })

/-- The block has a command to run: one in progress, or a whole word to take. -/
def State.hasWork (s : State) : Bool := s.inProgress.isSome || s.fetch.isSome

/-- The block is idle and waits for a whole command word: nothing changes (20_memory R44). -/
def wait (s : State) : State := s

/-- A word that is no command: IllegalCommand, before any effect (30_encoding R66, 60_exceptions R135). -/
def illegalWord (s : State) : State := raise .illegalCommand s

/-- The state in which the next word the block takes is `w`: `w` stands before every byte not taken yet, and nothing
keeps the block from taking it (no command in progress, no reset coming, the bus not taken by the other block). -/
def State.deliverFirst (w : Word) (s : State) : State :=
  { s with rx := wordBytes w ++ s.rx, inProgress := none, resetInput := none, otherBusy := false }

end Sys2Proof.Machine
end

