-- ==== Sys2Proof/Machine/Step.lean ====
section
/-! DEFINITION. One step of the machine: one command from its word to its response (00_scope R17). -/

namespace Sys2Proof.Machine

/-- What the block does when no reset strikes first: it finishes a command in progress, or takes the next word and
runs it, or waits. Taking a word is an action, after which a reset can cut the command the word gives, SET_PIN's one write
too (70_reset_and_hazards R152). It runs nothing while the other block on the bus does (20_memory R54). -/
def stepAwake (s : State) : Host.Outcome State Fault Refusal :=
  if s.otherBusy && s.hasWork then .refused .overlappingCommands
  else
    match s.inProgress with
    | some _ => .next (runToEnd s)
    | none =>
      match s.fetch with
      | none => .next (orReset wait s)
      | some (w, s') =>
        match decodeWord w with
        | .ok i => exec i s'.countAction
        | .error _ => .next (illegalWord s'.countAction)

/-- One step. A reset that is due comes before anything else (70_reset_and_hazards R152). -/
def step (s : State) : Host.Outcome State Fault Refusal :=
  match s.resetInput with
  | some ⟨0, left⟩ => .next (resetNow left s)
  | _ => stepAwake s

/-- `s` with the word that the opcode table numbers as `w` delivered as the next command word. -/
def State.withFetchWord (s : State) (nbits w : Nat) : State := s.deliverFirst (tableWord nbits w)

end Sys2Proof.Machine
end

