-- ==== Sys2Proof/Machine/Elaborate.lean ====
section
/-! DEFINITION. Elaboration: the parameter checks of 60_exceptions R131, made before any state exists. -/

namespace Sys2Proof.Machine

open Config (RawParams)

/-- The laws of CURVE (00_scope R6): `M + 1` entries, each in [0,255], entries 0, 4 and 8 as given. -/
def curveLegal (m : Int) (curve : List Int) : Bool :=
  decide ((curve.length : Int) = m + 1) && curve.all (fun v => decide (0 ≤ v ∧ v ≤ 255))
    && decide (curve[0]? = some 0) && decide (curve[4]? = some 180) && decide (curve[8]? = some 255)

/-- The laws of W (00_scope R9): six channels in [0,15] for each stepper, all twelve distinct. -/
def wiringLegal (w1 w2 : List Int) : Bool :=
  decide (w1.length = 6) && decide (w2.length = 6) && (w1 ++ w2).all (fun c => decide (0 ≤ c ∧ c ≤ 15))
    && decide ((w1 ++ w2).Nodup)

/-- `MOTOR_ID` is 1 or 2 (00_scope R7). -/
def motorIdLegal (id : Int) : Bool := decide (id = 1 ∨ id = 2)

/-- `S >= 1` (00_scope R8). -/
def stepsLegal (steps : Int) : Bool := decide (1 ≤ steps)

/-- `M` is even and at least 2 (00_scope R5). -/
def microstepsLegal (m : Int) : Bool := decide (m % 2 = 0 ∧ 2 ≤ m)

/-- `SPS0` is strictly positive (00_scope R10, 92_eei_decisions D4). -/
def sps0Legal (t : Rat) : Bool := decide (0 < t)

/-- Elaboration: the parameters of a block, or InvalidConfiguration and no block (60_exceptions R131). -/
def elaborate (p : RawParams) : Except ErrorKind RawParams :=
  if motorIdLegal p.motorId && stepsLegal p.steps && microstepsLegal p.m && curveLegal p.m p.curve
      && wiringLegal p.wiring1 p.wiring2 && sps0Legal p.sps0
  then .ok p
  else .error .invalidConfiguration

end Sys2Proof.Machine
end

