-- ==== Sys2Proof/Machine/HostPort.lean ====
section
/-! DEFINITION. What the outside world can do to the block: deliver bytes and words, reset it, answer its bus writes,
and use the shared bus itself (00_scope R17, 20_memory R43, R54, 41_energize R92, 70_reset_and_hazards R150, R152). -/

namespace Sys2Proof.Machine

/-- The transport delivers one byte (20_memory R44). -/
def hostByte (b : Byte) (s : State) : State := { s with rx := s.rx ++ [b] }

/-- The host hands over one command word (00_scope R17, 20_memory R43). -/
def hostWord (w : Word) (s : State) : State := { s with rx := s.rx ++ wordBytes w }

/-- The host resets the block now; a write it cuts off leaves `left` in its channel (70_reset_and_hazards R152). -/
def hostReset (left : Window) (s : State) : State := resetNow left s

/-- The host resets the block after `after` more of its actions. -/
def hostResetLater (after : Nat) (left : Window) (s : State) : State := { s with resetInput := some ⟨after, left⟩ }

/-- The environment settles its answers to the writes from number `s.busScript.length` on (41_energize R92). -/
def hostBusAnswers (as : List BusAnswer) (s : State) : State := { s with busScript := s.busScript ++ as }

/-- The other block on the bus starts (`true`) or completes (`false`) a command (20_memory R54, 60_exceptions R145). -/
def hostOtherBlock (busy : Bool) (s : State) : State := { s with otherBusy := busy }

/-- A channel write of the other block, between two commands of this one: CH belongs to the driver that both use
(10_state R27, 20_memory R54). -/
def hostOtherWrite (c : Chan) (w : Window) (s : State) : State := s.setChan c w

/-- The response words sent so far, oldest first. -/
def State.responses (s : State) : List Word :=
  s.out.filterMap fun | .response w => some w | .event _ => none

/-- The trace so far, oldest event first (10_state R28). -/
def State.trace (s : State) : List Event :=
  s.out.filterMap fun | .event e => some e | .response _ => none

end Sys2Proof.Machine
end

