-- ==== Sys2Proof/Safety.lean ====
section
/-! DEFINITION. The terms in which claims speak of a run: an environment that lets a command finish, the physical steps
of such a run written out without the tick-by-tick machinery, and the machine's invariant. -/

namespace Sys2Proof.Machine

/-! ### Encoding -/

/-- The must-be-zero bits of each opcode, as a mask (30_encoding R62). -/
def mustBeZeroMask : Nat → Word
  | 0 => 0xFFFFFFF0
  | 1 => 0x0000FFF0
  | 2 => 0x0000FFE0
  | 3 => 0x0000FFE0
  | 4 => 0x0000FFE0
  | 5 => 0x0000FFE0
  | 6 => 0xFFFFFFE0
  | 7 => 0xFF0000F0
  | _ => 0

/-! ### The environment of a run -/

/-- The environment answers `ok` to the next `n` channel writes (41_energize R92). -/
def State.BusOk (s : State) (n : Nat) : Prop := ∀ k, k < n → s.answerAt (s.busDraws + k) = .ok

/-- The next `n` channel writes succeed and no reset is coming. -/
def State.Quiet (s : State) (n : Nat) : Prop := s.resetInput = none ∧ s.BusOk n

/-- The six channels of this block's stepper (20_memory R41). -/
def motorChans : List Chan :=
  [Config.wiring.pwma, Config.wiring.pwmb, Config.wiring.ain2, Config.wiring.bin1, Config.wiring.ain1,
    Config.wiring.bin2]

/-! ### A physical step, as 41_energize R91 writes it -/

/-- An event that takes place and succeeds. -/
def land (s : State) (e : Event) : State :=
  match e with
  | .write c w => (s.emit (.write c w)).countDraw.setChan c w
  | .dwell t   => s.emit (.dwell t)

/-- A physical step up to and including its first `k` events. -/
def partialStep (mode : Mode) (rev : Bool) (t : Rat) (k : Nat) (s : State) : State :=
  ((stepEvents mode t (stepRegisters mode rev s)).take k).foldl land (stepRegisters mode rev s)

/-- One whole physical step: all seven events (41_energize R91, R96). -/
def physicalStep (mode : Mode) (rev : Bool) (t : Rat) (s : State) : State := partialStep mode rev t 7 s

/-- `n` physical steps, one after the other. -/
def physicalSteps (mode : Mode) (rev : Bool) (t : Rat) : Nat → State → State
  | 0, s => s
  | n + 1, s => physicalSteps mode rev t n (physicalStep mode rev t s)

/-- A physical step whose write number `k` (0 to 5) fails and leaves its channel at `left`: the events before it stand,
its own event is in the trace, and the command ends with BusError (41_energize R92). -/
def failedStep (mode : Mode) (rev : Bool) (t : Rat) (k : Nat) (left : Window) (s : State) : State :=
  match (stepEvents mode t (stepRegisters mode rev s))[k]? with
  | some (.write c w) =>
    raise .busError (((partialStep mode rev t k s).emit (.write c w)).countDraw.setChan c left)
  | _ => partialStep mode rev t k s

/-- Where a command that runs physical steps from `s` ends when a reset strikes after `8*j + r` of its actions, so after
`j` whole physical steps and in the next one before action `r` (0: its start or the response; 1 to 6: that write; 7: the
dwell): the command is abandoned with no response, the registers hold their reset values, and the channels are as those
steps left them but for the one whose write is cut off, which holds `left` (70_reset_and_hazards R152). -/
def AbandonedAt (mode : Mode) (rev : Bool) (t : Rat) (j r : Nat) (left : Window) (s : State)
    (o : Host.Outcome State Fault Refusal) : Prop :=
  ∃ u, o = .next u ∧ u.phase = 0 ∧ u.pwmA = 255 ∧ u.pwmB = 255 ∧ u.sps = Config.sps0 ∧ u.fault = 0 ∧
    u.inProgress = none ∧ u.out = [] ∧
    ∀ c, (motorChans[r - 1]? = some c ∧ 1 ≤ r → u.chan c = left) ∧
      (¬ (motorChans[r - 1]? = some c ∧ 1 ≤ r) →
        u.chan c = (partialStep mode rev t (r - 1) (physicalSteps mode rev t j s)).chan c)

/-- How many physical steps ALIGN_STEP runs from phase `p` (42_stepping R107). -/
def alignSteps (rev : Bool) (p : Nat) : Nat :=
  if p = 0 ∨ p = 8 then 0
  else if rev then (if p < 8 then p else p - 8)
  else (if p < 8 then 8 - p else 32 - p)

/-- The commands that write channels (60_exceptions R134). -/
def writesChannels : Instr → Bool
  | .getStatus => false
  | .setSpeed _ => false
  | .step _ _ => true
  | .doubleStep _ _ => true
  | .interleavedStep _ _ => true
  | .microStep _ _ => true
  | .alignStep _ => true
  | .setPin _ _ => true

/-- The five stepping commands (42_stepping R100 to R105). -/
def isStepping : Instr → Bool
  | .getStatus => false
  | .setSpeed _ => false
  | .step _ _ => true
  | .doubleStep _ _ => true
  | .interleavedStep _ _ => true
  | .microStep _ _ => true
  | .alignStep _ => true
  | .setPin _ _ => false

/-! ### The invariant -/

/-- The legal values of FAULT, and of a response's status field (10_state R25, 60_exceptions R130). -/
def codeLegal (c : BitVec 4) : Prop := c = 0 ∨ c = 2 ∨ c = 3 ∨ c = 4 ∨ c = 5

/-- The three kinds of window the block writes: a duty window, pin low, pin high (20_memory R42). -/
def windowLegal (w : Window) : Prop :=
  (w.on = 0 ∧ ∃ p : Byte, w.off.val = 16 * p.toNat) ∨ (w.on = 0 ∧ w.off = 4096) ∨ (w.on = 4096 ∧ w.off = 0)

/-- An event the block may make: a window of a legal kind, or a dwell of positive length. -/
def eventLegal : Event → Prop
  | .write _ w => windowLegal w
  | .dwell t   => 0 < t

/-- An output the block may make: a legal event, or a response whose FAULT and status are legal. -/
def outputLegal : Output → Prop
  | .event e    => eventLegal e
  | .response w => codeLegal (w.extractLsb 7 4) ∧ codeLegal (w.extractLsb 3 0)

/-- A loop whose dwell is positive. -/
def loopLegal : Loop → Prop
  | .finished         => True
  | .counted _ _ t _  => 0 < t
  | .untilAligned _ t => 0 < t

/-- The machine's invariant: SPS is strictly positive (10_state R24), FAULT is legal (R25), and all that the block has
put out, or has in hand to put out, is of a kind the spec lets it make. -/
structure MachineInv (s : State) : Prop where
  spsPositive   : 0 < s.sps
  faultLegal    : codeLegal s.fault
  outLegal      : ∀ o ∈ s.out, outputLegal o
  progressLegal : ∀ p, s.inProgress = some p → (∀ e ∈ p.pending, eventLegal e) ∧ loopLegal p.loop

end Sys2Proof.Machine
end

