-- ==== Sys2Proof/Certificates/Slice0/Obligations.lean ====
section
/-! DEFINITION. The statements for the provers. -/

open Sys2Proof Sys2Proof.Machine

/-! ### Encoding -/

/-- Decoding an encoded command gives it back, for every command with an encoding (30_encoding R56 to R61, R66). The
encoding is the spec's own (92_eei_decisions D2). -/
def Obligations.DecodeOfEncode : Prop :=
  ∀ i : Instr, WellFormed i = true → decodeWord (encode i) = .ok i

/-- A word that decodes to a command is that command's one encoding, and the command is well-formed (30_encoding R56 to
R61, R66). The encoding is the spec's own (D2). -/
def Obligations.EncodeOfDecode : Prop :=
  ∀ (w : Word) (i : Instr), decodeWord w = .ok i → encode i = w ∧ WellFormed i = true

/-- Every word is a command, or is rejected for its reserved opcode, or for a 1 in a must-be-zero bit
(30_encoding R62, R63, R64). -/
def Obligations.EveryWordIsCommandOrIllegal : Prop :=
  ∀ w : Word,
    (decodeWord w = .error .reservedOpcode ↔ 8 ≤ w.toNat % 16) ∧
    (decodeWord w = .error .mustBeZero ↔ w.toNat % 16 < 8 ∧ w &&& mustBeZeroMask (w.toNat % 16) ≠ 0) ∧
    ((∃ i, decodeWord w = .ok i) ↔ w.toNat % 16 < 8 ∧ w &&& mustBeZeroMask (w.toNat % 16) = 0)

/-- The operand fields as numbers: count is the signed high half, rpm the unsigned one, pin, value and rev their own
bits (30_encoding R58 to R61). Field widths: D16, D17; direction bit: D42. -/
def Obligations.OperandFieldsOfWord : Prop :=
  ∀ w : Word,
    countField w = (if w.toNat / 65536 < 32768 then (w.toNat / 65536 : Int) else (w.toNat / 65536 : Int) - 65536) ∧
    rpmField w = w.toNat / 65536 ∧
    pinField w = w.toNat / 256 % 256 ∧
    valueField w = w.toNat / 65536 % 256 ∧
    (revField w = true ↔ w.toNat / 16 % 2 = 1)

/-- The worked encodings of 30_encoding R70, in both directions. -/
def Obligations.WorkedEncodings : Prop :=
  ∀ p ∈ [ (Instr.getStatus, (0x00000000 : Word)), (.setSpeed 60, 0x003C0001), (.step 1 false, 0x00010002),
          (.step 4 true, 0x00040012), (.step (-1) false, 0xFFFF0002), (.doubleStep 2 false, 0x00020003),
          (.interleavedStep 3 true, 0x00030014), (.microStep 1 false, 0x00010005), (.alignStep true, 0x00000016),
          (.setPin 9 1, 0x00010907), (.setPin 16 1, 0x00011007) ],
    encode p.1 = p.2 ∧ decodeWord p.2 = .ok p.1

/-- A word carried as bytes is little-endian, and its four bytes are taken as that word (20_memory R43). The byte order
is decision D27; that the bytes wait in a queue is the model's choice (log entry 12). -/
def Obligations.WordsAreLittleEndian : Prop :=
  ∀ (w : Word) (rest : List Byte),
    takeWord (wordBytes w ++ rest) = some (w, rest) ∧
    (wordBytes w).map BitVec.toNat =
      [w.toNat % 256, w.toNat / 256 % 256, w.toNat / 65536 % 256, w.toNat / 16777216]

/-! ### The step -/

/-- With no reset due, the bus free and the block idle, a whole word that decodes to `i` is taken and `i` is run
(00_scope R17, 30_encoding R66, 20_memory R43). That one machine step is one whole command (log entry 5), that the word
comes from a byte queue which keeps the rest (log entry 12), and that a flag tells of the other block (log entry 7) are
the model's choices. -/
def Obligations.StepRunsDecodedCommand : Prop :=
  ∀ (s : State) (w : Word) (rest : List Byte) (i : Instr),
    s.resetInput = none → s.otherBusy = false → s.inProgress = none →
    takeWord s.rx = some (w, rest) → decodeWord w = .ok i →
    step s = exec i { s with rx := rest }

/-- An illegal word is taken, changes only FAULT, and is answered with IllegalCommand, status 5 (30_encoding R62, R63,
60_exceptions R135 to R137). Decisions D22, D23. -/
def Obligations.IllegalWordRaisesIllegalCommand : Prop :=
  ∀ (s : State) (w : Word) (rest : List Byte) (r : Reject),
    s.resetInput = none → s.otherBusy = false → s.inProgress = none →
    takeWord s.rx = some (w, rest) → decodeWord w = .error r →
    ∃ t, step s = .next t ∧
      t = { s with
            rx := rest
            fault := if s.fault = 0 then 5 else s.fault
            out := s.out ++ [.response (t.responseWord 5)] }

/-- Fewer than four bytes are no command: the idle block waits and nothing changes (20_memory R44). Decision D27; that
waiting is a step that changes nothing is the model's choice (log entry 12). -/
def Obligations.PartialWordWaits : Prop :=
  ∀ s : State, s.resetInput = none → s.inProgress = none → s.rx.length < 4 → step s = .next s

/-- No command of this block runs while the other block on the bus has one in progress: the step is refused, and it is
refused only then (20_memory R54, 70_reset_and_hazards R154). Decision D25; the flag that tells is the model's own (log
entry 7). -/
def Obligations.OverlapIsRefused : Prop :=
  ∀ s : State,
    (∃ r, step s = .refused r) ↔
      s.otherBusy = true ∧ (s.inProgress ≠ none ∨ 4 ≤ s.rx.length) ∧ ∀ left, s.resetInput ≠ some ⟨0, left⟩

/-- After any step that goes on, the block is idle: every command, and every command found in progress, has run to
completion, to its error or to a reset (00_scope R17, 42_stepping R100, R107). That no command is in progress between
two steps, and that a step carries on one it finds, is the model's choice (log entry 5), and so is the bound on a
command's actions (log entry 15). -/
def Obligations.StepLeavesBlockIdle : Prop :=
  ∀ s t : State, step s = .next t → t.inProgress = none

/-! ### Reset -/

/-- The state after power-up and reset (70_reset_and_hazards R150). Decisions D18, D37. -/
def Obligations.ResetValues : Prop :=
  State.reset.phase = 0 ∧ State.reset.pwmA = 255 ∧ State.reset.pwmB = 255 ∧ State.reset.sps = Config.sps0 ∧
  State.reset.fault = 0 ∧ State.reset.inProgress = none ∧ State.reset.trace = [] ∧
  ∀ c, State.reset.chan c = Config.powerUpWindow c

/-- A reset that is due comes before anything else. Every register takes its reset value, the trace is empty, there is
no response, and no channel changes but the one whose write it cuts off, which may hold anything (70_reset_and_hazards
R150, R151, R152). Decisions D26, D37; that the responses sent and the bytes not taken are gone too is the model's
choice (log entry 6). -/
def Obligations.ResetStrikes : Prop :=
  ∀ (s : State) (left : Window), s.resetInput = some ⟨0, left⟩ →
    ∃ t, step s = .next t ∧ t.phase = 0 ∧ t.pwmA = 255 ∧ t.pwmB = 255 ∧ t.sps = Config.sps0 ∧ t.fault = 0 ∧
      t.inProgress = none ∧ t.out = [] ∧ t.rx = [] ∧ t.resetInput = none ∧
      (s.inProgress = none → t.ch = s.ch) ∧
      ∀ c, t.chan c = s.chan c ∨
        (t.chan c = left ∧ ∃ w rest loop, s.inProgress = some ⟨.write c w :: rest, loop⟩)

/-- A reset that strikes STEP, DOUBLE_STEP, INTERLEAVED_STEP, MICRO_STEP or ALIGN_STEP after any number of its actions:
the command is abandoned, the registers hold their reset values, there is no response, and of the channels only the one
whose write is cut off differs from what the physical steps before it left (70_reset_and_hazards R152). Decision D26; the
actions between which a reset can strike, and `out` empty after it, are the model's choice (log entry 6). -/
def Obligations.ResetAbandonsStep : Prop :=
  ∀ (count : Int) (rev : Bool) (s : State) (j r : Nat) (left : Window),
    s.resetInput = some ⟨8 * j + r, left⟩ → r < 8 →
    (s.BusOk (6 * count.toNat) → 8 * j + r < 8 * count.toNat + 1 →
      AbandonedAt .whole rev s.sps j r left (fullStrength s) (exec (.step count rev) s) ∧
      AbandonedAt .double rev s.sps j r left (fullStrength s) (exec (.doubleStep count rev) s) ∧
      AbandonedAt .interleave rev (s.sps / 2) j r left (fullStrength s) (exec (.interleavedStep count rev) s)) ∧
    (s.BusOk (6 * (count.toNat * 8)) → 8 * j + r < 8 * (count.toNat * 8) + 1 →
      AbandonedAt .micro rev (s.sps / 8) j r left s (exec (.microStep count rev) s)) ∧
    (s.BusOk (6 * alignSteps rev s.phase.toNat) → 8 * j + r < 8 * alignSteps rev s.phase.toNat + 1 →
      AbandonedAt .micro rev (s.sps / 8) j r left s (exec (.alignStep rev) s))

/-- Every command ends, whatever its operands, the state, the bus answers and a reset that may come: `exec` has a next
state, and in it the block is idle (42_stepping R100, R107, 60_exceptions R139). -/
def Obligations.EveryCommandEnds : Prop :=
  ∀ (i : Instr) (s : State), ∃ t, exec i s = .next t ∧ t.inProgress = none

/-- Every command ends in one of two ways, whatever the bus answers and whenever a reset comes: with its response, or,
only where a reset was coming, with every register at its reset value, an empty trace and no response (30_encoding R67,
70_reset_and_hazards R150, R152). Decision D26; `rx` and the responses cleared by a reset are the model's choice (log
entry 6). -/
def Obligations.CommandEndsInResponseOrReset : Prop :=
  ∀ (i : Instr) (s t : State), exec i s = .next t →
    (∃ (es : List Event) (status : BitVec 4),
      t.out = s.out ++ es.map Output.event ++ [.response (t.responseWord status)]) ∨
    (s.resetInput ≠ none ∧ t.phase = 0 ∧ t.pwmA = 255 ∧ t.pwmB = 255 ∧ t.sps = Config.sps0 ∧ t.fault = 0 ∧
      t.inProgress = none ∧ t.out = [] ∧ t.rx = [] ∧ t.resetInput = none)

/-! ### Primitives -/

/-- The phase advance of each mode, in numbers for M = 8 (41_energize R90). Floor division is decision D12, the sign of
`rev` D42. -/
def Obligations.PhaseAdvance : Prop :=
  ∀ (mode : Mode) (rev : Bool) (p : BitVec 5),
    let d : Nat := match mode with
      | .whole      => if p.toNat / 4 % 2 = 0 then 8 else 4
      | .double     => if p.toNat / 4 % 2 = 1 then 8 else 4
      | .interleave => 4
      | .micro      => 1
    (advancePhase mode rev p).toNat = if rev then (p.toNat + 32 - d) % 32 else (p.toNat + d) % 32

/-- The coil tuples by phase: row `PHASE div 4` of the whole-step table, pair `PHASE div 8` of the microstep table
(41_energize R80, R82, R83, R85). The places of C and D are decision D8, the pairs D9. -/
def Obligations.CoilTables : Prop :=
  ∀ p : BitVec 5,
    [some (coilsWhole p)] =
      [[ (⟨true, false, false, false⟩ : Coils), ⟨true, true, false, false⟩, ⟨false, true, false, false⟩,
         ⟨false, true, true, false⟩, ⟨false, false, true, false⟩, ⟨false, false, true, true⟩,
         ⟨false, false, false, true⟩, ⟨true, false, false, true⟩ ][p.toNat / 4]?] ∧
    [some (coilsMicro p)] =
      [[ (⟨true, true, false, false⟩ : Coils), ⟨false, true, true, false⟩, ⟨false, false, true, true⟩,
         ⟨true, false, false, true⟩ ][p.toNat / 8]?]

/-- How many signals each tuple turns on, and how many change from row to row and from step to step (41_energize R94).
It rests on decisions D8 and D9, and on the reading of 90_conflicts C2. -/
def Obligations.CoilCounts : Prop :=
  (∀ k : Fin 8, (phaseTable k).active = if k.val % 2 = 0 then 1 else 2) ∧
  (∀ q : Fin 4, (microPair q).active = 2) ∧
  (∀ k : Fin 8, (phaseTable k).changes (phaseTable (k + 1)) = 1) ∧
  (∀ (rev : Bool) (p : BitVec 5), (coilsWhole p).changes (coilsWhole (advancePhase .interleave rev p)) = 1) ∧
  (∀ (rev : Bool) (p : BitVec 5), p.toNat / 4 % 2 = 0 →
    (coilsWhole p).changes (coilsWhole (advancePhase .whole rev p)) = 2) ∧
  (∀ (rev : Bool) (p : BitVec 5), p.toNat / 4 % 2 = 1 →
    (coilsWhole p).changes (coilsWhole (advancePhase .double rev p)) = 2)

/-- The drive strengths of a microstep by quadrant, from the curve alone (41_energize R84). Quadrants 1 to 3 are
decision D10, the wrapped PHASE D11. -/
def Obligations.MicrostepInterpolation : Prop :=
  ∀ (s : State),
    (s.phase.toNat < 8 → (interp s).pwmA = Config.curve (8 - s.phase.toNat) ∧
      (interp s).pwmB = Config.curve s.phase.toNat) ∧
    (8 ≤ s.phase.toNat → s.phase.toNat < 16 → (interp s).pwmA = Config.curve (s.phase.toNat - 8) ∧
      (interp s).pwmB = Config.curve (16 - s.phase.toNat)) ∧
    (16 ≤ s.phase.toNat → s.phase.toNat < 24 → (interp s).pwmA = Config.curve (24 - s.phase.toNat) ∧
      (interp s).pwmB = Config.curve (s.phase.toNat - 16)) ∧
    (24 ≤ s.phase.toNat → (interp s).pwmA = Config.curve (s.phase.toNat - 24) ∧
      (interp s).pwmB = Config.curve (32 - s.phase.toNat)) ∧
    Config.curve 0 = 0 ∧ Config.curve 4 = 180 ∧ Config.curve 8 = 255

/-- At every multiple of M, whole-step and microstep mode agree: the one coil of the whole-step row is at full strength
in microstep mode and the other bridge is at 0 (41_energize R95). It rests on decisions D8 to D10. -/
def Obligations.ModesAgreeAtMultiplesOfM : Prop :=
  (coilsWhole 0 = ⟨true, false, false, false⟩ ∧ coilsMicro 0 = ⟨true, true, false, false⟩ ∧
    interpolate 0 = (255, 0)) ∧
  (coilsWhole 8 = ⟨false, true, false, false⟩ ∧ coilsMicro 8 = ⟨false, true, true, false⟩ ∧
    interpolate 8 = (0, 255)) ∧
  (coilsWhole 16 = ⟨false, false, true, false⟩ ∧ coilsMicro 16 = ⟨false, false, true, true⟩ ∧
    interpolate 16 = (255, 0)) ∧
  (coilsWhole 24 = ⟨false, false, false, true⟩ ∧ coilsMicro 24 = ⟨true, false, false, true⟩ ∧
    interpolate 24 = (0, 255))

/-- The windows of a drive strength and of a pin (41_energize R86, R87). The on-tick 0 of a duty is decision D14, the
width D15. -/
def Obligations.DutyAndPinWindows : Prop :=
  (∀ p : Byte, (dutyWindow p).on.val = 0 ∧ (dutyWindow p).off.val = 16 * p.toNat) ∧
  (pinWindow true).on.val = 4096 ∧ (pinWindow true).off.val = 0 ∧
  (pinWindow false).on.val = 0 ∧ (pinWindow false).off.val = 4096

/-- The response word's fields (30_encoding R67). The layout is decision D3. -/
def Obligations.ResponseWordLayout : Prop :=
  ∀ (s : State) (status : BitVec 4),
    (s.responseWord status).toNat =
      s.pwmB.toNat * 16777216 + s.pwmA.toNat * 65536 + s.phase.toNat * 256 + s.fault.toNat * 16 + status.toNat

/-! ### What each command does -/

/-- GET_STATUS answers with status 0 and changes nothing else (44_status R125). The command is decision D35. -/
def Obligations.GetStatusReports : Prop :=
  ∀ s : State, s.inProgress = none →
    exec .getStatus s = .next { s with out := s.out ++ [.response (s.responseWord 0)] }

/-- SET_SPEED with a nonzero rpm sets SPS to exactly `60/(S*rpm)`, which is positive, answers with status 0 and changes
nothing else (40_speed R75). The exact rational is decision D32. -/
def Obligations.SetSpeedSetsPace : Prop :=
  ∀ (rpm : Nat) (s : State), s.inProgress = none → rpm ≠ 0 →
    exec (.setSpeed rpm) s = .next
      { s with
        sps := 60 / (((Config.stepsPerRev : Nat) : Rat) * (rpm : Rat))
        out := s.out ++ [.response (s.responseWord 0)] } ∧
    (0 : Rat) < 60 / (((Config.stepsPerRev : Nat) : Rat) * (rpm : Rat))

/-- SET_SPEED 0 raises DivisionFault: status 3, FAULT keeps the first error, nothing else changes (40_speed R75,
60_exceptions R133, R137). Sticky FAULT and the code: D22, D24. -/
def Obligations.SetSpeedZeroIsDivisionFault : Prop :=
  ∀ s : State, s.inProgress = none →
    ∃ t, exec (.setSpeed 0) s = .next t ∧
      t = { s with
            fault := if s.fault = 0 then 3 else s.fault
            out := s.out ++ [.response (t.responseWord 3)] }

/-- STEP where every write succeeds: full strength, `max(count, 0)` physical steps of mode WHOLE with dwell SPS, status
0 (42_stepping R100, R101). Decisions D13, D17, D20. -/
def Obligations.StepRuns : Prop :=
  ∀ (count : Int) (rev : Bool) (s : State) (n : Nat), (n : Int) = max count 0 → s.Quiet (6 * n) →
    exec (.step count rev) s = .next (respond 0 (physicalSteps .whole rev s.sps n { s with pwmA := 255, pwmB := 255 }))

/-- DOUBLE_STEP likewise, in mode DOUBLE with dwell SPS (42_stepping R100, R102). Decisions D33, D34. -/
def Obligations.DoubleStepRuns : Prop :=
  ∀ (count : Int) (rev : Bool) (s : State) (n : Nat), (n : Int) = max count 0 → s.Quiet (6 * n) →
    exec (.doubleStep count rev) s =
      .next (respond 0 (physicalSteps .double rev s.sps n { s with pwmA := 255, pwmB := 255 }))

/-- INTERLEAVED_STEP likewise, in mode INTERLEAVE with dwell SPS/2 (42_stepping R100, R103). Decision D33. -/
def Obligations.InterleavedStepRuns : Prop :=
  ∀ (count : Int) (rev : Bool) (s : State) (n : Nat), (n : Int) = max count 0 → s.Quiet (6 * n) →
    exec (.interleavedStep count rev) s =
      .next (respond 0 (physicalSteps .interleave rev (s.sps / 2) n { s with pwmA := 255, pwmB := 255 }))

/-- MICRO_STEP where every write succeeds: `max(count, 0) * 8` physical steps of mode MICRO with dwell SPS/8, the drive
strengths not forced at entry, status 0 (42_stepping R100, R104). Decision D41. -/
def Obligations.MicroStepRuns : Prop :=
  ∀ (count : Int) (rev : Bool) (s : State) (n : Nat), (n : Int) = max count 0 * 8 → s.Quiet (6 * n) →
    exec (.microStep count rev) s = .next (respond 0 (physicalSteps .micro rev (s.sps / 8) n s))

/-- ALIGN_STEP where every write succeeds: exactly the physical steps of mode MICRO that 42_stepping R107 counts, with
dwell SPS/8, ending at phase 0 or 8 with status 0 (42_stepping R105, R107). Targets: D39; dwell: D19. -/
def Obligations.AlignStepRuns : Prop :=
  ∀ (rev : Bool) (s : State), s.Quiet (6 * alignSteps rev s.phase.toNat) →
    exec (.alignStep rev) s =
      .next (respond 0 (physicalSteps .micro rev (s.sps / 8) (alignSteps rev s.phase.toNat) s)) ∧
    alignSteps rev s.phase.toNat ≤ 23 ∧
    ((physicalSteps .micro rev (s.sps / 8) (alignSteps rev s.phase.toNat) s).phase = 0 ∨
      (physicalSteps .micro rev (s.sps / 8) (alignSteps rev s.phase.toNat) s).phase = 8)

/-- SET_PIN with a legal pin and value, where its write succeeds: one write event, that channel's window is `(4096, 0)`
for 1 and `(0, 4096)` for 0, status 0, and nothing else changes (43_pin R120). -/
def Obligations.SetPinDrivesPin : Prop :=
  ∀ (pin value : Nat) (s : State) (c : Chan) (w : Window), pin ≤ 15 → value ≤ 1 → c.val = pin →
    w = (if value = 1 then ⟨4096, 0⟩ else ⟨0, 4096⟩) → s.Quiet 1 →
    exec (.setPin pin value) s = .next
      { s with
        inProgress := none
        ch := s.ch.set c w
        busDraws := s.busDraws + 1
        out := s.out ++ [.event (.write c w), .response (s.responseWord 0)] }

/-- SET_PIN with a pin above 15 or a value above 1 raises one InvalidArgument, before any write: status 2, and nothing
changes but FAULT (43_pin R120, 60_exceptions R132, R136). -/
def Obligations.SetPinRejectsBadArguments : Prop :=
  ∀ (pin value : Nat) (s : State), s.inProgress = none → pin > 15 ∨ value > 1 →
    ∃ t, exec (.setPin pin value) s = .next t ∧
      t = { s with
            fault := if s.fault = 0 then 2 else s.fault
            out := s.out ++ [.response (t.responseWord 2)] }

/-- A count of 0 or less makes no write and no dwell; STEP, DOUBLE_STEP and INTERLEAVED_STEP still set both drive
strengths to 255, and MICRO_STEP changes nothing (42_stepping R100). Decisions D17, D33. -/
def Obligations.NoStepsForCountZeroOrLess : Prop :=
  ∀ (count : Int) (rev : Bool) (s : State), count ≤ 0 → s.resetInput = none →
    exec (.step count rev) s = .next (respond 0 { s with pwmA := 255, pwmB := 255 }) ∧
    exec (.doubleStep count rev) s = .next (respond 0 { s with pwmA := 255, pwmB := 255 }) ∧
    exec (.interleavedStep count rev) s = .next (respond 0 { s with pwmA := 255, pwmB := 255 }) ∧
    exec (.microStep count rev) s = .next (respond 0 s)

/-! ### Bus failures -/

/-- A counted stepping command whose write number `k` of physical step `j` is the first to fail: the steps and writes
before it stand, the failed channel holds what the environment leaves there, and the command ends with BusError, with no
later write and no dwell (41_energize R92, 60_exceptions R134, R137). Decision D21. -/
def Obligations.SteppingStopsAtBusError : Prop :=
  ∀ (count : Int) (rev : Bool) (s : State) (j k : Nat) (left : Window), s.resetInput = none → k < 6 →
    s.BusOk (6 * j + k) → s.answerAt (s.busDraws + (6 * j + k)) = .fail left →
    (j < count.toNat → exec (.step count rev) s =
      .next (failedStep .whole rev s.sps k left (physicalSteps .whole rev s.sps j (fullStrength s)))) ∧
    (j < count.toNat → exec (.doubleStep count rev) s =
      .next (failedStep .double rev s.sps k left (physicalSteps .double rev s.sps j (fullStrength s)))) ∧
    (j < count.toNat → exec (.interleavedStep count rev) s =
      .next (failedStep .interleave rev (s.sps / 2) k left
        (physicalSteps .interleave rev (s.sps / 2) j (fullStrength s)))) ∧
    (j < count.toNat * 8 → exec (.microStep count rev) s =
      .next (failedStep .micro rev (s.sps / 8) k left (physicalSteps .micro rev (s.sps / 8) j s)))

/-- ALIGN_STEP likewise (41_energize R92, 42_stepping R105). Decision D21. -/
def Obligations.AlignStopsAtBusError : Prop :=
  ∀ (rev : Bool) (s : State) (j k : Nat) (left : Window), s.resetInput = none → k < 6 →
    j < alignSteps rev s.phase.toNat →
    s.BusOk (6 * j + k) → s.answerAt (s.busDraws + (6 * j + k)) = .fail left →
    exec (.alignStep rev) s =
      .next (failedStep .micro rev (s.sps / 8) k left (physicalSteps .micro rev (s.sps / 8) j s))

/-- SET_PIN whose write fails: the event is in the trace, the channel holds what the environment leaves there, and the
command ends with BusError, status 4 (43_pin R120, 41_energize R92, 60_exceptions R137). Decision D21. -/
def Obligations.SetPinBusError : Prop :=
  ∀ (pin value : Nat) (s : State) (c : Chan) (w left : Window), pin ≤ 15 → value ≤ 1 → c.val = pin →
    w = (if value = 1 then ⟨4096, 0⟩ else ⟨0, 4096⟩) → s.resetInput = none →
    s.answerAt s.busDraws = .fail left →
    ∃ t, exec (.setPin pin value) s = .next t ∧
      t = { s with
            inProgress := none
            ch := s.ch.set c left
            busDraws := s.busDraws + 1
            fault := if s.fault = 0 then 4 else s.fault
            out := s.out ++ [.event (.write c w), .response (t.responseWord 4)] }

/-! ### Rules over all commands, whatever the environment answers -/

/-- Every command ends with exactly one response word, after all its events, which carries the final PWM_B, PWM_A, PHASE
and FAULT and the command's status; and FAULT takes that status if it was 0 and else keeps its value (30_encoding R67,
10_state R25, 60_exceptions R137). Decisions D3, D22. -/
def Obligations.OneResponsePerCommand : Prop :=
  ∀ (i : Instr) (s t : State), s.resetInput = none → exec i s = .next t →
    ∃ (es : List Event) (status : BitVec 4),
      t.out = s.out ++ es.map Output.event ++ [.response (t.responseWord status)] ∧
      t.fault = (if s.fault = 0 then status else s.fault)

/-- Which error a command reports: InvalidArgument exactly from a bad SET_PIN, DivisionFault exactly from SET_SPEED 0,
BusError only from a command that writes channels, and no other code (60_exceptions R130, R132, R133, R134). -/
def Obligations.ErrorCauses : Prop :=
  ∀ (i : Instr) (s t : State) (before : List Output) (status : BitVec 4), s.resetInput = none →
    exec i s = .next t → t.out = before ++ [.response (t.responseWord status)] →
    (status = 2 ↔ ∃ pin value, i = .setPin pin value ∧ (pin > 15 ∨ value > 1)) ∧
    (status = 3 ↔ i = .setSpeed 0) ∧
    (status = 4 → writesChannels i = true) ∧
    (status = 0 ∨ status = 2 ∨ status = 3 ∨ status = 4)

/-- The frame of the stepping commands. Whatever the bus answers and whenever a reset comes, every channel outside the
six of this stepper is unchanged. Without a reset, SPS and the inputs are unchanged too, and FAULT changes only from 0 to
BusError (10_state R34, 20_memory R47, 70_reset_and_hazards R152). -/
def Obligations.SteppingFrame : Prop :=
  ∀ (i : Instr) (s t : State), isStepping i = true → exec i s = .next t →
    (∀ c, c ∉ motorChans → t.chan c = s.chan c) ∧
    (s.resetInput = none →
      t.sps = s.sps ∧ t.rx = s.rx ∧ t.busScript = s.busScript ∧ t.otherBusy = s.otherBusy ∧ t.resetInput = none ∧
      (t.fault = s.fault ∨ (s.fault = 0 ∧ t.fault = 4)))

/-- The frame of SET_PIN. Whatever the bus answers and whenever a reset comes, no channel changes but the one it names,
and with an illegal argument no channel at all. Without a reset, no register changes but FAULT (10_state R34,
43_pin R120, 20_memory R47, 70_reset_and_hazards R152). -/
def Obligations.SetPinFrame : Prop :=
  ∀ (pin value : Nat) (s t : State), exec (.setPin pin value) s = .next t →
    (∀ c : Chan, c.val ≠ pin ∨ value > 1 → t.chan c = s.chan c) ∧
    (s.resetInput = none →
      t.phase = s.phase ∧ t.pwmA = s.pwmA ∧ t.pwmB = s.pwmB ∧ t.sps = s.sps ∧ t.rx = s.rx ∧
      (t.fault = s.fault ∨ s.fault = 0))

/-- The whole-step commands leave both drive strengths at 255, whatever the bus does (10_state R22, R23, R34). -/
def Obligations.WholeStepCommandsKeepFullStrength : Prop :=
  ∀ (count : Int) (rev : Bool) (s t : State), s.resetInput = none →
    exec (.step count rev) s = .next t ∨ exec (.doubleStep count rev) s = .next t ∨
      exec (.interleavedStep count rev) s = .next t →
    t.pwmA = 255 ∧ t.pwmB = 255

/-- FAULT, once an error code, is kept by every step; only a reset clears it (10_state R25, 60_exceptions R139).
Decision D22. -/
def Obligations.FaultIsSticky : Prop :=
  ∀ s t : State, s.resetInput = none → step s = .next t → s.fault ≠ 0 → t.fault = s.fault

/-- The block reads no channel: runs that differ only in CH put out the same, and leave the same registers
(10_state R27, 20_memory R41). -/
def Obligations.ChannelsAreNeverRead : Prop :=
  ∀ (i : Instr) (s t : State) (ch : Vector Window 16), exec i s = .next t →
    ∃ t', exec i { s with ch := ch } = .next t' ∧ { t' with ch := t.ch } = t ∧
      ∀ c, s.chan c = ({ s with ch := ch } : State).chan c → t'.chan c = t.chan c

/-- SPS shows only in dwells: runs that differ only in SPS make the same writes and give the same responses, and leave
the same channels and the same registers but SPS (10_state R24, 44_status R126). -/
def Obligations.PaceShowsOnlyInDwells : Prop :=
  ∀ (i : Instr) (s t : State) (q : Rat), exec i s = .next t →
    ∃ t', exec i { s with sps := q } = .next t' ∧
      t'.responses = t.responses ∧
      t'.trace.filter (fun e => match e with | .write _ _ => true | .dwell _ => false) =
        t.trace.filter (fun e => match e with | .write _ _ => true | .dwell _ => false) ∧
      t'.ch = t.ch ∧ t'.phase = t.phase ∧ t'.pwmA = t.pwmA ∧ t'.pwmB = t.pwmB ∧ t'.fault = t.fault

/-! ### The invariant -/

/-- The invariant holds after reset. -/
def Obligations.InvariantAtReset : Prop := MachineInv State.reset

/-- Every step keeps the invariant: SPS stays positive, FAULT stays a legal code, and every window, dwell and response
the block puts out is of a kind the spec lets it make (10_state R24, R25, 20_memory R42, 60_exceptions R130). -/
def Obligations.StepKeepsInvariant : Prop :=
  ∀ s t : State, MachineInv s → step s = .next t → MachineInv t

/-! ### Properties of the stepping commands -/

/-- The events of `n` physical steps are the concatenation of seven events each, in full and in the order of
41_energize R96: the duty windows `(0, 16*PWM)` of PWMA and PWMB, the pin windows of AIN2, BIN1, AIN1 and BIN2 by the
tuple of the new PHASE, and then `Dwell(t)`; the strengths are those of INTERP at the new PHASE in mode MICRO and else
those held before (41_energize R84 to R89, R91). So there are `7*n` events and the dwells add up to `n*t`
(70_reset_and_hazards R156). The order of the writes is decision D13. -/
def Obligations.PhysicalStepsTrace : Prop :=
  ∀ (mode : Mode) (rev : Bool) (t : Rat) (n : Nat) (s : State),
    let seven : State → List Event := fun x =>
      let p := advancePhase mode rev x.phase
      let a := if mode = .micro then (interpolate p.toNat).1 else x.pwmA
      let b := if mode = .micro then (interpolate p.toNat).2 else x.pwmB
      let c := if mode = .micro then coilsMicro p else coilsWhole p
      [ .write Config.wiring.pwma (dutyWindow a), .write Config.wiring.pwmb (dutyWindow b),
        .write Config.wiring.ain2 (pinWindow c.ain2), .write Config.wiring.bin1 (pinWindow c.bin1),
        .write Config.wiring.ain1 (pinWindow c.ain1), .write Config.wiring.bin2 (pinWindow c.bin2), .dwell t ]
    (physicalSteps mode rev t 1 s).out = s.out ++ (seven s).map Output.event ∧
    ∃ es : List Event,
      es = (List.range n).flatMap (fun j => seven (physicalSteps mode rev t j s)) ∧
      (physicalSteps mode rev t n s).out = s.out ++ es.map Output.event ∧
      es.length = 7 * n ∧
      (es.map (fun e => match e with | .write _ _ => (0 : Rat) | .dwell d => d)).sum = n * t

/-- `STEP n, FWD` then `STEP n, REV` gives PHASE back from an even half-step index, and else `PHASE - 4` (42_stepping
R106). It rests on floor division, D12. -/
def Obligations.StepRoundTrip : Prop :=
  ∀ (n : Nat) (s t u : State), s.Quiet (12 * n) →
    exec (.step n false) s = .next t → exec (.step n true) t = .next u →
    u.phase = if n = 0 ∨ s.phase.toNat / 4 % 2 = 0 then s.phase else s.phase - 4

/-- `DOUBLE_STEP n, FWD` then `DOUBLE_STEP n, REV` gives PHASE back from an odd half-step index, and else `PHASE - 4`
(42_stepping R106). It rests on floor division, D12. -/
def Obligations.DoubleStepRoundTrip : Prop :=
  ∀ (n : Nat) (s t u : State), s.Quiet (12 * n) →
    exec (.doubleStep n false) s = .next t → exec (.doubleStep n true) t = .next u →
    u.phase = if n = 0 ∨ s.phase.toNat / 4 % 2 = 1 then s.phase else s.phase - 4

/-- `INTERLEAVED_STEP n` and `MICRO_STEP n`, forward and then in reverse, always give PHASE back (42_stepping R106). -/
def Obligations.InterleavedAndMicroRoundTrip : Prop :=
  (∀ (n : Nat) (s t u : State), s.Quiet (12 * n) →
    exec (.interleavedStep n false) s = .next t → exec (.interleavedStep n true) t = .next u → u.phase = s.phase) ∧
  (∀ (n : Nat) (s t u : State), s.Quiet (96 * n) →
    exec (.microStep n false) s = .next t → exec (.microStep n true) t = .next u → u.phase = s.phase)

/-- An ALIGN_STEP that reports success ends at phase 0 or 8, and a second one, in either direction, makes no write and
no dwell and changes no state (42_stepping R107). Targets and test point: D39. -/
def Obligations.AlignIsIdempotent : Prop :=
  ∀ (rev rev' : Bool) (s t : State) (before : List Output), s.resetInput = none →
    exec (.alignStep rev) s = .next t → t.out = before ++ [.response (t.responseWord 0)] →
    (t.phase = 0 ∨ t.phase = 8) ∧
    exec (.alignStep rev') t = .next { t with out := t.out ++ [.response (t.responseWord 0)] }

/-- What each command keeps of PHASE where it reports success: STEP an even half-step index, DOUBLE_STEP an odd one,
INTERLEAVED_STEP PHASE mod 4, MICRO_STEP PHASE mod 8; and ALIGN_STEP ends at 0 or 8, from where the next whole-step move
is 8 for STEP and 4 for DOUBLE_STEP (42_stepping R108). -/
def Obligations.PhaseClassesKept : Prop :=
  ∀ (count : Int) (rev : Bool) (s t : State) (before : List Output), s.resetInput = none →
    t.out = before ++ [.response (t.responseWord 0)] →
    (exec (.step count rev) s = .next t → s.phase.toNat / 4 % 2 = 0 → t.phase.toNat / 4 % 2 = 0) ∧
    (exec (.doubleStep count rev) s = .next t → s.phase.toNat / 4 % 2 = 1 → t.phase.toNat / 4 % 2 = 1) ∧
    (exec (.interleavedStep count rev) s = .next t → t.phase.toNat % 4 = s.phase.toNat % 4) ∧
    (exec (.microStep count rev) s = .next t → t.phase.toNat % 8 = s.phase.toNat % 8) ∧
    (exec (.alignStep rev) s = .next t → (t.phase = 0 ∨ t.phase = 8) ∧
      stepDistance .whole (halfStepIndex t.phase) = 8 ∧ stepDistance .double (halfStepIndex t.phase) = 4)

/-- What a stepping command that ran at least one physical step, with every write good, leaves on the six motor channels,
whatever they held before. The full-strength commands: full duty and the table row of the final PHASE. MICRO_STEP and
ALIGN_STEP: the duties that INTERP gives at the final PHASE, which are also PWM_A and PWM_B, and the microstep pair of
the final PHASE (41_energize R80 to R88, 70_reset_and_hazards R158). -/
def Obligations.StepDrivesCoilsOfFinalPhase : Prop :=
  (∀ (count : Int) (rev : Bool) (s t : State), 0 < count → s.Quiet (6 * count.toNat) →
    exec (.step count rev) s = .next t ∨ exec (.doubleStep count rev) s = .next t ∨
      exec (.interleavedStep count rev) s = .next t →
    t.chan Config.wiring.pwma = ⟨0, 4080⟩ ∧ t.chan Config.wiring.pwmb = ⟨0, 4080⟩ ∧
    t.chan Config.wiring.ain2 = pinWindow (coilsWhole t.phase).ain2 ∧
    t.chan Config.wiring.bin1 = pinWindow (coilsWhole t.phase).bin1 ∧
    t.chan Config.wiring.ain1 = pinWindow (coilsWhole t.phase).ain1 ∧
    t.chan Config.wiring.bin2 = pinWindow (coilsWhole t.phase).bin2) ∧
  (∀ (count : Int) (rev : Bool) (s t : State),
    (0 < count ∧ s.Quiet (6 * (count.toNat * 8)) ∧ exec (.microStep count rev) s = .next t) ∨
    (0 < alignSteps rev s.phase.toNat ∧ s.Quiet (6 * alignSteps rev s.phase.toNat) ∧
      exec (.alignStep rev) s = .next t) →
    t.pwmA = (interpolate t.phase.toNat).1 ∧ t.pwmB = (interpolate t.phase.toNat).2 ∧
    t.chan Config.wiring.pwma = dutyWindow (interpolate t.phase.toNat).1 ∧
    t.chan Config.wiring.pwmb = dutyWindow (interpolate t.phase.toNat).2 ∧
    t.chan Config.wiring.ain2 = pinWindow (coilsMicro t.phase).ain2 ∧
    t.chan Config.wiring.bin1 = pinWindow (coilsMicro t.phase).bin1 ∧
    t.chan Config.wiring.ain1 = pinWindow (coilsMicro t.phase).ain1 ∧
    t.chan Config.wiring.bin2 = pinWindow (coilsMicro t.phase).bin2)

/-- The transients of one physical step: where AIN1 was high and AIN2 becomes high, both are high from event 3 until
event 5; where BIN2 was high and BIN1 becomes high, both are high from event 4 until event 6 (70_reset_and_hazards R157).
The order of the writes is decision D13, which errs both ways for just such claims; that event `k` has happened after
`1 + k` actions of the model is the model's choice of granularity (log entry 5). -/
def Obligations.TransientPins : Prop :=
  ∀ (mode : Mode) (rev : Bool) (t : Rat) (n k : Nat) (s : State), s.Quiet 6 →
    let mid := runTicks (1 + k) (s.setProgress (some ⟨[], .counted mode rev t (n + 1)⟩))
    let c := coils (mode = .micro) (stepRegisters mode rev s).phase
    (s.chan Config.wiring.ain1 = pinWindow true → c.ain2 = true → 3 ≤ k → k < 5 →
      mid.chan Config.wiring.ain2 = pinWindow true ∧ mid.chan Config.wiring.ain1 = pinWindow true) ∧
    (s.chan Config.wiring.bin2 = pinWindow true → c.bin1 = true → 4 ≤ k → k < 6 →
      mid.chan Config.wiring.bin1 = pinWindow true ∧ mid.chan Config.wiring.bin2 = pinWindow true)

/-- The same SET_PIN twice makes two identical write events and leaves the channels as after the first
(20_memory R46, 43_pin R120). -/
def Obligations.RepeatedSetPinWritesAgain : Prop :=
  ∀ (pin value : Nat) (s t u : State) (c : Chan), pin ≤ 15 → value ≤ 1 → c.val = pin → s.Quiet 2 →
    exec (.setPin pin value) s = .next t → exec (.setPin pin value) t = .next u →
    u.ch = t.ch ∧
    u.trace = s.trace ++ [.write c (pinWindow (value = 1)), .write c (pinWindow (value = 1))]

/-! ### Elaboration -/

/-- Elaboration raises InvalidConfiguration where a parameter is outside its law, and else accepts the parameters as
they are (60_exceptions R131, 00_scope R5 to R10). The checks past the first are decisions D4, D5, D40; that SPS0 is
checked with them is the model's reading of D4 (log entry 11). -/
def Obligations.ElaborationChecksParameters : Prop :=
  ∀ p : Config.RawParams,
    (elaborate p = .error .invalidConfiguration ↔
      ¬ (p.motorId = 1 ∨ p.motorId = 2) ∨ p.steps < 1 ∨ p.m % 2 ≠ 0 ∨ p.m < 2 ∨
      (p.curve.length : Int) ≠ p.m + 1 ∨ (∃ v ∈ p.curve, v < 0 ∨ 255 < v) ∨
      p.curve[0]? ≠ some 0 ∨ p.curve[4]? ≠ some 180 ∨ p.curve[8]? ≠ some 255 ∨
      p.wiring1.length ≠ 6 ∨ p.wiring2.length ≠ 6 ∨ (∃ c ∈ p.wiring1 ++ p.wiring2, c < 0 ∨ 15 < c) ∨
      ¬ (p.wiring1 ++ p.wiring2).Nodup ∨ p.sps0 ≤ 0) ∧
    (elaborate p ≠ .error .invalidConfiguration → elaborate p = .ok p)

/-- This block's own parameters, whatever they are, pass elaboration (60_exceptions R131, 00_scope R5 to R10). That the
parameters are legal by construction is the model's choice (log entry 4). -/
def Obligations.OwnParametersAreLegal : Prop := elaborate Config.raw = .ok Config.raw

/-! ### A reset inside SET_PIN, and the registers of a physical step -/

/-- A reset that strikes once the block has taken a legal SET_PIN, and before that command's one write is done: the
command is abandoned, the registers hold their reset values, there is no response, the channel of the cut write holds
any window, and no other channel changes (70_reset_and_hazards R152, 43_pin R120). Decision D26; that taking the word is
one action, that `rx` and `out` are empty after the reset (log entry 6), the byte queue (log entry 12) and the flag of
the other block (log entry 7) are the model's choices. -/
def Obligations.ResetCutsSetPinWrite : Prop :=
  ∀ (s : State) (w : Word) (rest : List Byte) (pin value : Nat) (c : Chan) (left : Window),
    s.resetInput = some ⟨1, left⟩ → s.otherBusy = false → s.inProgress = none →
    takeWord s.rx = some (w, rest) → decodeWord w = .ok (.setPin pin value) →
    pin ≤ 15 → value ≤ 1 → c.val = pin →
    ∃ t, step s = .next t ∧ t.phase = 0 ∧ t.pwmA = 255 ∧ t.pwmB = 255 ∧ t.sps = Config.sps0 ∧ t.fault = 0 ∧
      t.inProgress = none ∧ t.out = [] ∧ t.rx = [] ∧ t.resetInput = none ∧ t.ch = s.ch.set c left

/-- The registers after `n + 1` physical steps, from those after `n`: PHASE has advanced once more, the strengths are those
of INTERP at the new PHASE in mode MICRO and else unchanged, and SPS and FAULT are unchanged (41_energize R90, R91). -/
def Obligations.PhysicalStepRegisters : Prop :=
  ∀ (mode : Mode) (rev : Bool) (t : Rat) (n : Nat) (s : State),
    let x := physicalSteps mode rev t n s
    let y := physicalSteps mode rev t (n + 1) s
    y.phase = advancePhase mode rev x.phase ∧
    (mode = .micro → y.pwmA = (interpolate y.phase.toNat).1 ∧ y.pwmB = (interpolate y.phase.toNat).2) ∧
    (mode ≠ .micro → y.pwmA = x.pwmA ∧ y.pwmB = x.pwmB) ∧
    y.sps = x.sps ∧ y.fault = x.fault
end

