-- ==== Sys2Proof/Laws/Encoding.lean ====
section
/-! SUPPORT. The decoder's fields and the encoder's formats as numbers. -/

namespace Sys2Proof

theorem extractLsb_toNat (w : Word) (hi lo : Nat) :
    (w.extractLsb hi lo).toNat = w.toNat / 2 ^ lo % 2 ^ (hi - lo + 1) := by
  simp [BitVec.extractLsb, Nat.shiftRight_eq_div_pow]

theorem extractLsb_eq_zero (w : Word) (hi lo : Nat) :
    w.extractLsb hi lo = 0 ↔ w.toNat / 2 ^ lo % 2 ^ (hi - lo + 1) = 0 := by
  rw [← extractLsb_toNat]
  exact ⟨fun h => by rw [h]; rfl, fun h => BitVec.eq_of_toNat_eq h⟩

theorem append_toNat {n m : Nat} (a : BitVec n) (b : BitVec m) : (a ++ b).toNat = a.toNat * 2 ^ m + b.toNat := by
  rw [BitVec.toNat_append, ← Nat.shiftLeft_add_eq_or_of_lt b.isLt, Nat.shiftLeft_eq]

theorem opField_toNat (w : Word) : (opField w).toNat = w.toNat % 16 := by simp [opField]

theorem highField_toNat (w : Word) : (highField w).toNat = w.toNat / 65536 := by
  have := w.isLt
  simp [highField]
  omega

theorem revField_eq (w : Word) : revField w = decide (w.toNat / 16 % 2 = 1) := by
  unfold revField
  rw [BitVec.getLsbD, Nat.testBit_eq_decide_div_mod_eq]

theorem formatS_toNat (c : Int) (rev : Bool) (op : BitVec 4) :
    (formatS c rev op).toNat = (BitVec.ofInt 16 c).toNat * 65536 + rev.toNat * 16 + op.toNat := by
  unfold formatS
  rw [append_toNat, append_toNat, append_toNat]
  cases rev <;> simp <;> omega

theorem requireZero_ok {zero : Bool} {i j : Instr} : requireZero zero i = .ok j ↔ zero = true ∧ i = j := by
  cases zero <;> simp [requireZero]

theorem requireZero_error {zero : Bool} {i : Instr} {r : Reject} :
    requireZero zero i = .error r ↔ zero = false ∧ r = .mustBeZero := by
  cases zero <;> simp [requireZero, eq_comm]

end Sys2Proof
end

