-- ==== Sys2Proof/Laws/PerInstr.lean ====
section
/-! SUPPORT. Statements made per instruction: the fixed bits of every encoding are those of spec/opcode_table.json. -/

namespace Sys2Proof.Laws.EncodeMatchesTable

/-- The fixed bits of a command's word: its row's mask in spec/opcode_table.json. -/
def tableMask : Instr → Word
  | .getStatus           => 0xFFFFFFFF
  | .setSpeed _          => 0x0000FFFF
  | .step _ _            => 0x0000FFEF
  | .doubleStep _ _      => 0x0000FFEF
  | .interleavedStep _ _ => 0x0000FFEF
  | .microStep _ _       => 0x0000FFEF
  | .alignStep _         => 0xFFFFFFEF
  | .setPin _ _          => 0xFF0000FF

/-- The values of those bits: its row's match. -/
def tableMatch : Instr → Word
  | .getStatus           => 0x00000000
  | .setSpeed _          => 0x00000001
  | .step _ _            => 0x00000002
  | .doubleStep _ _      => 0x00000003
  | .interleavedStep _ _ => 0x00000004
  | .microStep _ _       => 0x00000005
  | .alignStep _         => 0x00000006
  | .setPin _ _          => 0x00000007

/-- The fixed bits of the command's word hold what its row of the opcode table says. -/
def Statement (i : Instr) : Prop := encode i &&& tableMask i = tableMatch i


/-- The fixed bits of format S. -/
theorem formatS_fixed (c : Int) (rev : Bool) (op : BitVec 4) :
    formatS c rev op &&& 0x0000FFEF#32 = 0#28 ++ op := by
  rw [show (0x0000FFEF#32 : BitVec 32) = 0#16 ++ 0x7FF#11 ++ 0#1 ++ 0xF#4 by rfl, formatS]
  rw [BitVec.and_append, BitVec.and_append, BitVec.and_append, BitVec.and_zero, BitVec.and_zero, BitVec.zero_and]
  revert op; decide

theorem getStatus : Statement .getStatus := rfl

theorem setSpeed (rpm : Nat) : Statement (.setSpeed rpm) := by
  show (BitVec.ofNat 16 rpm ++ 0#12 ++ 0x1#4) &&& (0#16 ++ 0xFFF#12 ++ 0xF#4) = _
  rw [BitVec.and_append, BitVec.and_append, BitVec.and_zero]; rfl

theorem step (count : Int) (rev : Bool) : Statement (.step count rev) := formatS_fixed count rev 0x2#4

theorem doubleStep (count : Int) (rev : Bool) : Statement (.doubleStep count rev) := formatS_fixed count rev 0x3#4

theorem interleavedStep (count : Int) (rev : Bool) : Statement (.interleavedStep count rev) :=
  formatS_fixed count rev 0x4#4

theorem microStep (count : Int) (rev : Bool) : Statement (.microStep count rev) := formatS_fixed count rev 0x5#4

theorem alignStep (rev : Bool) : Statement (.alignStep rev) := by cases rev <;> rfl

theorem setPin (pin value : Nat) : Statement (.setPin pin value) := by
  show (0#8 ++ BitVec.ofNat 8 value ++ BitVec.ofNat 8 pin ++ 0#4 ++ 0x7#4) &&&
    (0xFF#8 ++ 0#8 ++ 0#8 ++ 0xF#4 ++ 0xF#4) = _
  rw [BitVec.and_append, BitVec.and_append, BitVec.and_append, BitVec.and_append, BitVec.and_zero, BitVec.and_zero]
  rfl

end Sys2Proof.Laws.EncodeMatchesTable
end

