-- ==== Sys2Proof/Laws/State.lean ====
section
/-! SUPPORT. One lemma per field per named update of the state, each true by unfolding, and what the updates leave of the
derived reads: the response word, the environment's answers, a channel. -/

namespace Sys2Proof.Machine

variable (s : State)

/-! ### setChan -/

@[simp] theorem setChan_phase (c : Chan) (w : Window) : (s.setChan c w).phase = s.phase := rfl
@[simp] theorem setChan_pwmA (c : Chan) (w : Window) : (s.setChan c w).pwmA = s.pwmA := rfl
@[simp] theorem setChan_pwmB (c : Chan) (w : Window) : (s.setChan c w).pwmB = s.pwmB := rfl
@[simp] theorem setChan_sps (c : Chan) (w : Window) : (s.setChan c w).sps = s.sps := rfl
@[simp] theorem setChan_fault (c : Chan) (w : Window) : (s.setChan c w).fault = s.fault := rfl
@[simp] theorem setChan_inProgress (c : Chan) (w : Window) : (s.setChan c w).inProgress = s.inProgress := rfl
@[simp] theorem setChan_ch (c : Chan) (w : Window) : (s.setChan c w).ch = s.ch.set c w := rfl
@[simp] theorem setChan_out (c : Chan) (w : Window) : (s.setChan c w).out = s.out := rfl
@[simp] theorem setChan_rx (c : Chan) (w : Window) : (s.setChan c w).rx = s.rx := rfl
@[simp] theorem setChan_busScript (c : Chan) (w : Window) : (s.setChan c w).busScript = s.busScript := rfl
@[simp] theorem setChan_busDraws (c : Chan) (w : Window) : (s.setChan c w).busDraws = s.busDraws := rfl
@[simp] theorem setChan_resetInput (c : Chan) (w : Window) : (s.setChan c w).resetInput = s.resetInput := rfl
@[simp] theorem setChan_otherBusy (c : Chan) (w : Window) : (s.setChan c w).otherBusy = s.otherBusy := rfl
@[simp] theorem setChan_responseWord (c : Chan) (w : Window) (st : BitVec 4) : (s.setChan c w).responseWord st = s.responseWord st := rfl
@[simp] theorem setChan_answerAt (c : Chan) (w : Window) (k : Nat) : (s.setChan c w).answerAt k = s.answerAt k := rfl

/-! ### countAction -/

@[simp] theorem countAction_phase : s.countAction.phase = s.phase := by unfold State.countAction; split <;> rfl
@[simp] theorem countAction_pwmA : s.countAction.pwmA = s.pwmA := by unfold State.countAction; split <;> rfl
@[simp] theorem countAction_pwmB : s.countAction.pwmB = s.pwmB := by unfold State.countAction; split <;> rfl
@[simp] theorem countAction_sps : s.countAction.sps = s.sps := by unfold State.countAction; split <;> rfl
@[simp] theorem countAction_fault : s.countAction.fault = s.fault := by unfold State.countAction; split <;> rfl
@[simp] theorem countAction_inProgress : s.countAction.inProgress = s.inProgress := by unfold State.countAction; split <;> rfl
@[simp] theorem countAction_ch : s.countAction.ch = s.ch := by unfold State.countAction; split <;> rfl
@[simp] theorem countAction_out : s.countAction.out = s.out := by unfold State.countAction; split <;> rfl
@[simp] theorem countAction_rx : s.countAction.rx = s.rx := by unfold State.countAction; split <;> rfl
@[simp] theorem countAction_busScript : s.countAction.busScript = s.busScript := by unfold State.countAction; split <;> rfl
@[simp] theorem countAction_busDraws : s.countAction.busDraws = s.busDraws := by unfold State.countAction; split <;> rfl
@[simp] theorem countAction_otherBusy : s.countAction.otherBusy = s.otherBusy := by unfold State.countAction; split <;> rfl
@[simp] theorem countAction_responseWord (st : BitVec 4) : s.countAction.responseWord st = s.responseWord st := by
  unfold State.countAction; split <;> rfl
@[simp] theorem countAction_answerAt (k : Nat) : s.countAction.answerAt k = s.answerAt k := by
  unfold State.countAction; split <;> rfl
@[simp] theorem countAction_chan (c : Chan) : s.countAction.chan c = s.chan c := by
  unfold State.countAction; split <;> rfl

/-- With no reset coming, an action counts nothing. -/
theorem countAction_noReset (h : s.resetInput = none) : s.countAction = s := by simp [State.countAction, h]

/-- A reset still to come is one action nearer. -/
theorem countAction_succ {n : Nat} {left : Window} (h : s.resetInput = some ⟨n + 1, left⟩) :
    s.countAction = { s with resetInput := some ⟨n, left⟩ } := by simp [State.countAction, h]

/-! ### emit -/

@[simp] theorem emit_phase (e : Event) : (s.emit e).phase = s.phase := rfl
@[simp] theorem emit_pwmA (e : Event) : (s.emit e).pwmA = s.pwmA := rfl
@[simp] theorem emit_pwmB (e : Event) : (s.emit e).pwmB = s.pwmB := rfl
@[simp] theorem emit_sps (e : Event) : (s.emit e).sps = s.sps := rfl
@[simp] theorem emit_fault (e : Event) : (s.emit e).fault = s.fault := rfl
@[simp] theorem emit_inProgress (e : Event) : (s.emit e).inProgress = s.inProgress := rfl
@[simp] theorem emit_ch (e : Event) : (s.emit e).ch = s.ch := rfl
@[simp] theorem emit_out (e : Event) : (s.emit e).out = s.out ++ [.event e] := rfl
@[simp] theorem emit_rx (e : Event) : (s.emit e).rx = s.rx := rfl
@[simp] theorem emit_busScript (e : Event) : (s.emit e).busScript = s.busScript := rfl
@[simp] theorem emit_busDraws (e : Event) : (s.emit e).busDraws = s.busDraws := rfl
@[simp] theorem emit_resetInput (e : Event) : (s.emit e).resetInput = s.resetInput := rfl
@[simp] theorem emit_otherBusy (e : Event) : (s.emit e).otherBusy = s.otherBusy := rfl
@[simp] theorem emit_responseWord (e : Event) (st : BitVec 4) : (s.emit e).responseWord st = s.responseWord st := rfl
@[simp] theorem emit_chan (e : Event) (d : Chan) : (s.emit e).chan d = s.chan d := rfl
@[simp] theorem emit_answerAt (e : Event) (k : Nat) : (s.emit e).answerAt k = s.answerAt k := rfl

/-! ### setProgress -/

@[simp] theorem setProgress_phase (p : Option InProgress) : (s.setProgress p).phase = s.phase := rfl
@[simp] theorem setProgress_pwmA (p : Option InProgress) : (s.setProgress p).pwmA = s.pwmA := rfl
@[simp] theorem setProgress_pwmB (p : Option InProgress) : (s.setProgress p).pwmB = s.pwmB := rfl
@[simp] theorem setProgress_sps (p : Option InProgress) : (s.setProgress p).sps = s.sps := rfl
@[simp] theorem setProgress_fault (p : Option InProgress) : (s.setProgress p).fault = s.fault := rfl
@[simp] theorem setProgress_inProgress (p : Option InProgress) : (s.setProgress p).inProgress = p := rfl
@[simp] theorem setProgress_ch (p : Option InProgress) : (s.setProgress p).ch = s.ch := rfl
@[simp] theorem setProgress_out (p : Option InProgress) : (s.setProgress p).out = s.out := rfl
@[simp] theorem setProgress_rx (p : Option InProgress) : (s.setProgress p).rx = s.rx := rfl
@[simp] theorem setProgress_busScript (p : Option InProgress) : (s.setProgress p).busScript = s.busScript := rfl
@[simp] theorem setProgress_busDraws (p : Option InProgress) : (s.setProgress p).busDraws = s.busDraws := rfl
@[simp] theorem setProgress_resetInput (p : Option InProgress) : (s.setProgress p).resetInput = s.resetInput := rfl
@[simp] theorem setProgress_otherBusy (p : Option InProgress) : (s.setProgress p).otherBusy = s.otherBusy := rfl
@[simp] theorem setProgress_responseWord (p : Option InProgress) (st : BitVec 4) : (s.setProgress p).responseWord st = s.responseWord st := rfl
@[simp] theorem setProgress_chan (p : Option InProgress) (d : Chan) : (s.setProgress p).chan d = s.chan d := rfl
@[simp] theorem setProgress_answerAt (p : Option InProgress) (k : Nat) : (s.setProgress p).answerAt k = s.answerAt k := rfl

/-! ### countDraw -/

@[simp] theorem countDraw_phase : (s.countDraw).phase = s.phase := rfl
@[simp] theorem countDraw_pwmA : (s.countDraw).pwmA = s.pwmA := rfl
@[simp] theorem countDraw_pwmB : (s.countDraw).pwmB = s.pwmB := rfl
@[simp] theorem countDraw_sps : (s.countDraw).sps = s.sps := rfl
@[simp] theorem countDraw_fault : (s.countDraw).fault = s.fault := rfl
@[simp] theorem countDraw_inProgress : (s.countDraw).inProgress = s.inProgress := rfl
@[simp] theorem countDraw_ch : (s.countDraw).ch = s.ch := rfl
@[simp] theorem countDraw_out : (s.countDraw).out = s.out := rfl
@[simp] theorem countDraw_rx : (s.countDraw).rx = s.rx := rfl
@[simp] theorem countDraw_busScript : (s.countDraw).busScript = s.busScript := rfl
@[simp] theorem countDraw_busDraws : (s.countDraw).busDraws = s.busDraws + 1 := rfl
@[simp] theorem countDraw_resetInput : (s.countDraw).resetInput = s.resetInput := rfl
@[simp] theorem countDraw_otherBusy : (s.countDraw).otherBusy = s.otherBusy := rfl
@[simp] theorem countDraw_responseWord (st : BitVec 4) : (s.countDraw).responseWord st = s.responseWord st := rfl
@[simp] theorem countDraw_chan (d : Chan) : (s.countDraw).chan d = s.chan d := rfl
@[simp] theorem countDraw_answerAt (k : Nat) : (s.countDraw).answerAt k = s.answerAt k := rfl

/-! ### recordFault -/

@[simp] theorem recordFault_phase (c : BitVec 4) : (s.recordFault c).phase = s.phase := rfl
@[simp] theorem recordFault_pwmA (c : BitVec 4) : (s.recordFault c).pwmA = s.pwmA := rfl
@[simp] theorem recordFault_pwmB (c : BitVec 4) : (s.recordFault c).pwmB = s.pwmB := rfl
@[simp] theorem recordFault_sps (c : BitVec 4) : (s.recordFault c).sps = s.sps := rfl
@[simp] theorem recordFault_fault (c : BitVec 4) : (s.recordFault c).fault = if s.fault = 0 then c else s.fault := rfl
@[simp] theorem recordFault_inProgress (c : BitVec 4) : (s.recordFault c).inProgress = s.inProgress := rfl
@[simp] theorem recordFault_ch (c : BitVec 4) : (s.recordFault c).ch = s.ch := rfl
@[simp] theorem recordFault_out (c : BitVec 4) : (s.recordFault c).out = s.out := rfl
@[simp] theorem recordFault_rx (c : BitVec 4) : (s.recordFault c).rx = s.rx := rfl
@[simp] theorem recordFault_busScript (c : BitVec 4) : (s.recordFault c).busScript = s.busScript := rfl
@[simp] theorem recordFault_busDraws (c : BitVec 4) : (s.recordFault c).busDraws = s.busDraws := rfl
@[simp] theorem recordFault_resetInput (c : BitVec 4) : (s.recordFault c).resetInput = s.resetInput := rfl
@[simp] theorem recordFault_otherBusy (c : BitVec 4) : (s.recordFault c).otherBusy = s.otherBusy := rfl
@[simp] theorem recordFault_chan (c : BitVec 4) (d : Chan) : (s.recordFault c).chan d = s.chan d := rfl
@[simp] theorem recordFault_answerAt (c : BitVec 4) (k : Nat) : (s.recordFault c).answerAt k = s.answerAt k := rfl

/-! ### setPace -/

@[simp] theorem setPace_phase (t : Rat) : (s.setPace t).phase = s.phase := rfl
@[simp] theorem setPace_pwmA (t : Rat) : (s.setPace t).pwmA = s.pwmA := rfl
@[simp] theorem setPace_pwmB (t : Rat) : (s.setPace t).pwmB = s.pwmB := rfl
@[simp] theorem setPace_sps (t : Rat) : (s.setPace t).sps = t := rfl
@[simp] theorem setPace_fault (t : Rat) : (s.setPace t).fault = s.fault := rfl
@[simp] theorem setPace_inProgress (t : Rat) : (s.setPace t).inProgress = s.inProgress := rfl
@[simp] theorem setPace_ch (t : Rat) : (s.setPace t).ch = s.ch := rfl
@[simp] theorem setPace_out (t : Rat) : (s.setPace t).out = s.out := rfl
@[simp] theorem setPace_rx (t : Rat) : (s.setPace t).rx = s.rx := rfl
@[simp] theorem setPace_busScript (t : Rat) : (s.setPace t).busScript = s.busScript := rfl
@[simp] theorem setPace_busDraws (t : Rat) : (s.setPace t).busDraws = s.busDraws := rfl
@[simp] theorem setPace_resetInput (t : Rat) : (s.setPace t).resetInput = s.resetInput := rfl
@[simp] theorem setPace_otherBusy (t : Rat) : (s.setPace t).otherBusy = s.otherBusy := rfl
@[simp] theorem setPace_responseWord (t : Rat) (st : BitVec 4) : (s.setPace t).responseWord st = s.responseWord st := rfl
@[simp] theorem setPace_chan (t : Rat) (d : Chan) : (s.setPace t).chan d = s.chan d := rfl
@[simp] theorem setPace_answerAt (t : Rat) (k : Nat) : (s.setPace t).answerAt k = s.answerAt k := rfl

/-! ### fullStrength -/

@[simp] theorem fullStrength_phase : (fullStrength s).phase = s.phase := rfl
@[simp] theorem fullStrength_pwmA : (fullStrength s).pwmA = 255 := rfl
@[simp] theorem fullStrength_pwmB : (fullStrength s).pwmB = 255 := rfl
@[simp] theorem fullStrength_sps : (fullStrength s).sps = s.sps := rfl
@[simp] theorem fullStrength_fault : (fullStrength s).fault = s.fault := rfl
@[simp] theorem fullStrength_inProgress : (fullStrength s).inProgress = s.inProgress := rfl
@[simp] theorem fullStrength_ch : (fullStrength s).ch = s.ch := rfl
@[simp] theorem fullStrength_out : (fullStrength s).out = s.out := rfl
@[simp] theorem fullStrength_rx : (fullStrength s).rx = s.rx := rfl
@[simp] theorem fullStrength_busScript : (fullStrength s).busScript = s.busScript := rfl
@[simp] theorem fullStrength_busDraws : (fullStrength s).busDraws = s.busDraws := rfl
@[simp] theorem fullStrength_resetInput : (fullStrength s).resetInput = s.resetInput := rfl
@[simp] theorem fullStrength_otherBusy : (fullStrength s).otherBusy = s.otherBusy := rfl
@[simp] theorem fullStrength_chan (d : Chan) : (fullStrength s).chan d = s.chan d := rfl
@[simp] theorem fullStrength_answerAt (k : Nat) : (fullStrength s).answerAt k = s.answerAt k := rfl

/-! ### advance -/

@[simp] theorem advance_phase (mode : Mode) (rev : Bool) : (advance mode rev s).phase = advancePhase mode rev s.phase := rfl
@[simp] theorem advance_pwmA (mode : Mode) (rev : Bool) : (advance mode rev s).pwmA = s.pwmA := rfl
@[simp] theorem advance_pwmB (mode : Mode) (rev : Bool) : (advance mode rev s).pwmB = s.pwmB := rfl
@[simp] theorem advance_sps (mode : Mode) (rev : Bool) : (advance mode rev s).sps = s.sps := rfl
@[simp] theorem advance_fault (mode : Mode) (rev : Bool) : (advance mode rev s).fault = s.fault := rfl
@[simp] theorem advance_inProgress (mode : Mode) (rev : Bool) : (advance mode rev s).inProgress = s.inProgress := rfl
@[simp] theorem advance_ch (mode : Mode) (rev : Bool) : (advance mode rev s).ch = s.ch := rfl
@[simp] theorem advance_out (mode : Mode) (rev : Bool) : (advance mode rev s).out = s.out := rfl
@[simp] theorem advance_rx (mode : Mode) (rev : Bool) : (advance mode rev s).rx = s.rx := rfl
@[simp] theorem advance_busScript (mode : Mode) (rev : Bool) : (advance mode rev s).busScript = s.busScript := rfl
@[simp] theorem advance_busDraws (mode : Mode) (rev : Bool) : (advance mode rev s).busDraws = s.busDraws := rfl
@[simp] theorem advance_resetInput (mode : Mode) (rev : Bool) : (advance mode rev s).resetInput = s.resetInput := rfl
@[simp] theorem advance_otherBusy (mode : Mode) (rev : Bool) : (advance mode rev s).otherBusy = s.otherBusy := rfl
@[simp] theorem advance_chan (mode : Mode) (rev : Bool) (d : Chan) : (advance mode rev s).chan d = s.chan d := rfl
@[simp] theorem advance_answerAt (mode : Mode) (rev : Bool) (k : Nat) : (advance mode rev s).answerAt k = s.answerAt k := rfl

/-! ### interp -/

@[simp] theorem interp_phase : (interp s).phase = s.phase := rfl
@[simp] theorem interp_pwmA : (interp s).pwmA = (interpolate s.phase.toNat).1 := rfl
@[simp] theorem interp_pwmB : (interp s).pwmB = (interpolate s.phase.toNat).2 := rfl
@[simp] theorem interp_sps : (interp s).sps = s.sps := rfl
@[simp] theorem interp_fault : (interp s).fault = s.fault := rfl
@[simp] theorem interp_inProgress : (interp s).inProgress = s.inProgress := rfl
@[simp] theorem interp_ch : (interp s).ch = s.ch := rfl
@[simp] theorem interp_out : (interp s).out = s.out := rfl
@[simp] theorem interp_rx : (interp s).rx = s.rx := rfl
@[simp] theorem interp_busScript : (interp s).busScript = s.busScript := rfl
@[simp] theorem interp_busDraws : (interp s).busDraws = s.busDraws := rfl
@[simp] theorem interp_resetInput : (interp s).resetInput = s.resetInput := rfl
@[simp] theorem interp_otherBusy : (interp s).otherBusy = s.otherBusy := rfl
@[simp] theorem interp_chan (d : Chan) : (interp s).chan d = s.chan d := rfl
@[simp] theorem interp_answerAt (k : Nat) : (interp s).answerAt k = s.answerAt k := rfl

/-! ### respond -/

@[simp] theorem respond_phase (c : BitVec 4) : (respond c s).phase = s.phase := rfl
@[simp] theorem respond_pwmA (c : BitVec 4) : (respond c s).pwmA = s.pwmA := rfl
@[simp] theorem respond_pwmB (c : BitVec 4) : (respond c s).pwmB = s.pwmB := rfl
@[simp] theorem respond_sps (c : BitVec 4) : (respond c s).sps = s.sps := rfl
@[simp] theorem respond_fault (c : BitVec 4) : (respond c s).fault = s.fault := rfl
@[simp] theorem respond_inProgress (c : BitVec 4) : (respond c s).inProgress = none := rfl
@[simp] theorem respond_ch (c : BitVec 4) : (respond c s).ch = s.ch := rfl
@[simp] theorem respond_out (c : BitVec 4) : (respond c s).out = s.out ++ [.response (s.responseWord c)] := rfl
@[simp] theorem respond_rx (c : BitVec 4) : (respond c s).rx = s.rx := rfl
@[simp] theorem respond_busScript (c : BitVec 4) : (respond c s).busScript = s.busScript := rfl
@[simp] theorem respond_busDraws (c : BitVec 4) : (respond c s).busDraws = s.busDraws := rfl
@[simp] theorem respond_resetInput (c : BitVec 4) : (respond c s).resetInput = s.resetInput := rfl
@[simp] theorem respond_otherBusy (c : BitVec 4) : (respond c s).otherBusy = s.otherBusy := rfl
@[simp] theorem respond_chan (c : BitVec 4) (d : Chan) : (respond c s).chan d = s.chan d := rfl
@[simp] theorem respond_answerAt (c : BitVec 4) (k : Nat) : (respond c s).answerAt k = s.answerAt k := rfl

/-! ### raise -/

@[simp] theorem raise_phase (e : ErrorKind) : (raise e s).phase = s.phase := rfl
@[simp] theorem raise_pwmA (e : ErrorKind) : (raise e s).pwmA = s.pwmA := rfl
@[simp] theorem raise_pwmB (e : ErrorKind) : (raise e s).pwmB = s.pwmB := rfl
@[simp] theorem raise_sps (e : ErrorKind) : (raise e s).sps = s.sps := rfl
@[simp] theorem raise_fault (e : ErrorKind) : (raise e s).fault = if s.fault = 0 then e.code else s.fault := rfl
@[simp] theorem raise_inProgress (e : ErrorKind) : (raise e s).inProgress = none := rfl
@[simp] theorem raise_ch (e : ErrorKind) : (raise e s).ch = s.ch := rfl
@[simp] theorem raise_out (e : ErrorKind) : (raise e s).out = s.out ++ [.response ((s.recordFault e.code).responseWord e.code)] := rfl
@[simp] theorem raise_rx (e : ErrorKind) : (raise e s).rx = s.rx := rfl
@[simp] theorem raise_busScript (e : ErrorKind) : (raise e s).busScript = s.busScript := rfl
@[simp] theorem raise_busDraws (e : ErrorKind) : (raise e s).busDraws = s.busDraws := rfl
@[simp] theorem raise_resetInput (e : ErrorKind) : (raise e s).resetInput = s.resetInput := rfl
@[simp] theorem raise_otherBusy (e : ErrorKind) : (raise e s).otherBusy = s.otherBusy := rfl
@[simp] theorem raise_chan (e : ErrorKind) (d : Chan) : (raise e s).chan d = s.chan d := rfl
@[simp] theorem raise_answerAt (e : ErrorKind) (k : Nat) : (raise e s).answerAt k = s.answerAt k := rfl

/-! ### Reading a channel -/

@[simp] theorem setChan_chan_self (c : Chan) (w : Window) : (s.setChan c w).chan c = w := by
  simp [State.setChan, State.chan]

theorem setChan_chan_ne {c d : Chan} (w : Window) (h : d ≠ c) : (s.setChan c w).chan d = s.chan d := by
  have h' : c.val ≠ d.val := fun e => h (Fin.ext e.symm)
  simp [State.setChan, State.chan, h']

theorem setChan_chan (c d : Chan) (w : Window) : (s.setChan c w).chan d = if d = c then w else s.chan d := by
  split
  · next h => rw [h, setChan_chan_self]
  · next h => exact setChan_chan_ne s w h

/-- Two channel arrays that read the same everywhere are the same. -/
theorem ch_ext {s t : State} (h : ∀ c, s.chan c = t.chan c) : s.ch = t.ch := by
  apply Vector.ext
  intro i hi
  exact h ⟨i, hi⟩

end Sys2Proof.Machine
end

