-- ==== Sys2Proof/Laws/Run.lean ====
section
/-! SUPPORT. What the shared operations can do, said once: a channel write, an event, one action, and the run of a
command in progress. -/

namespace Sys2Proof.Machine

variable {s : State}

/-! ### The wiring -/

/-- The six motor channels are distinct (00_scope R9). -/
theorem motorChans_nodup : motorChans.Nodup := by
  unfold motorChans Config.wiring
  cases Config.motorId <;> simp [Config.wiringOf]

/-- The channels of the two steppers are disjoint (00_scope R9). -/
theorem wiring_disjoint : ∀ c ∈ (Config.wiringOf .one).toList, c ∉ (Config.wiringOf .two).toList := by
  have inj : ∀ a b : Chan, (Config.wiringPerm a).val = (Config.wiringPerm b).val ↔ a = b := fun a b =>
    Fin.val_inj.trans Config.wiringPerm.injective.eq_iff
  simp [Config.Wiring.toList, Config.wiringOf, inj]

/-! ### Writes and events -/

theorem chanWrite_ok (c : Chan) (w : Window) (h : s.answerAt s.busDraws = .ok) :
    chanWrite c w s = land s (.write c w) := by
  simp [chanWrite, h, land]

theorem chanWrite_fail (c : Chan) (w left : Window) (h : s.answerAt s.busDraws = .fail left) :
    chanWrite c w s = raise .busError ((s.emit (.write c w)).countDraw.setChan c left) := by
  simp [chanWrite, h]

/-- Everything a channel write can do: it succeeds, or it fails with BusError. -/
theorem chanWrite_cases (c : Chan) (w : Window) (s : State) :
    chanWrite c w s = land s (.write c w) ∨
    ∃ left, chanWrite c w s = raise .busError ((s.emit (.write c w)).countDraw.setChan c left) := by
  cases h : s.answerAt s.busDraws with
  | ok => exact .inl (chanWrite_ok c w h)
  | fail left => exact .inr ⟨left, chanWrite_fail c w left h⟩

/-- Everything an event can do: it lands, or it is a write that fails. -/
theorem perform_cases (e : Event) (s : State) :
    perform e s = land s e ∨
    ∃ c w left, e = .write c w ∧
      perform e s = raise .busError ((s.emit (.write c w)).countDraw.setChan c left) := by
  cases e with
  | dwell t => exact .inl rfl
  | write c w =>
    rcases chanWrite_cases c w s with h | ⟨left, h⟩
    · exact .inl h
    · exact .inr ⟨c, w, left, rfl, h⟩

/-- How many writes are among some events. -/
def writeCount (es : List Event) : Nat :=
  (es.filter fun e => match e with | .write _ _ => true | .dwell _ => false).length

@[simp] theorem writeCount_nil : writeCount [] = 0 := rfl
@[simp] theorem writeCount_write (c : Chan) (w : Window) (es : List Event) :
    writeCount (.write c w :: es) = writeCount es + 1 := rfl
@[simp] theorem writeCount_dwell (t : Rat) (es : List Event) : writeCount (.dwell t :: es) = writeCount es := rfl

/-! ### land -/

@[simp] theorem land_phase (e : Event) : (land s e).phase = s.phase := by cases e <;> rfl
@[simp] theorem land_pwmA (e : Event) : (land s e).pwmA = s.pwmA := by cases e <;> rfl
@[simp] theorem land_pwmB (e : Event) : (land s e).pwmB = s.pwmB := by cases e <;> rfl
@[simp] theorem land_sps (e : Event) : (land s e).sps = s.sps := by cases e <;> rfl
@[simp] theorem land_fault (e : Event) : (land s e).fault = s.fault := by cases e <;> rfl
@[simp] theorem land_inProgress (e : Event) : (land s e).inProgress = s.inProgress := by cases e <;> rfl
@[simp] theorem land_out (e : Event) : (land s e).out = s.out ++ [.event e] := by cases e <;> rfl
@[simp] theorem land_rx (e : Event) : (land s e).rx = s.rx := by cases e <;> rfl
@[simp] theorem land_busScript (e : Event) : (land s e).busScript = s.busScript := by cases e <;> rfl
@[simp] theorem land_resetInput (e : Event) : (land s e).resetInput = s.resetInput := by cases e <;> rfl
@[simp] theorem land_otherBusy (e : Event) : (land s e).otherBusy = s.otherBusy := by cases e <;> rfl
@[simp] theorem land_answerAt (e : Event) (k : Nat) : (land s e).answerAt k = s.answerAt k := by cases e <;> rfl
@[simp] theorem land_setProgress (e : Event) (p : Option InProgress) :
    land (s.setProgress p) e = (land s e).setProgress p := by cases e <;> rfl

theorem foldl_land_setProgress (es : List Event) (s : State) (p : Option InProgress) :
    es.foldl land (s.setProgress p) = (es.foldl land s).setProgress p := by
  induction es generalizing s with
  | nil => rfl
  | cons e es ih => simp [ih]

@[simp] theorem foldl_land_phase (es : List Event) (s : State) : (es.foldl land s).phase = s.phase := by
  induction es generalizing s with
  | nil => rfl
  | cons e es ih => simp [ih]

@[simp] theorem foldl_land_pwmA (es : List Event) (s : State) : (es.foldl land s).pwmA = s.pwmA := by
  induction es generalizing s with
  | nil => rfl
  | cons e es ih => simp [ih]

@[simp] theorem foldl_land_pwmB (es : List Event) (s : State) : (es.foldl land s).pwmB = s.pwmB := by
  induction es generalizing s with
  | nil => rfl
  | cons e es ih => simp [ih]

@[simp] theorem foldl_land_resetInput (es : List Event) (s : State) :
    (es.foldl land s).resetInput = s.resetInput := by
  induction es generalizing s with
  | nil => rfl
  | cons e es ih => simp [ih]

@[simp] theorem foldl_land_answerAt (es : List Event) (s : State) (k : Nat) :
    (es.foldl land s).answerAt k = s.answerAt k := by
  induction es generalizing s with
  | nil => rfl
  | cons e es ih => simp [ih]

@[simp] theorem foldl_land_out (es : List Event) (s : State) :
    (es.foldl land s).out = s.out ++ es.map Output.event := by
  induction es generalizing s with
  | nil => simp
  | cons e es ih => simp [ih]

@[simp] theorem foldl_land_busDraws (es : List Event) (s : State) :
    (es.foldl land s).busDraws = s.busDraws + writeCount es := by
  induction es generalizing s with
  | nil => rfl
  | cons e es ih =>
    cases e <;> simp [ih, land]
    omega

/-! ### One action -/

/-- Everything `orReset` can do: the reset strikes, or the action takes place and is counted. -/
theorem orReset_cases (a : State → State) (s : State) :
    (∃ left, s.resetInput = some ⟨0, left⟩ ∧ orReset a s = resetNow left s) ∨ orReset a s = a s.countAction := by
  unfold orReset
  split
  · next left h => exact .inl ⟨left, h, rfl⟩
  · exact .inr rfl

theorem tick_noReset (h : s.resetInput = none) : tick s = act s := by
  simp [tick, orReset, h, countAction_noReset s h]

theorem tick_reset {left : Window} (h : s.resetInput = some ⟨0, left⟩) : tick s = resetNow left s := by
  simp [tick, orReset, h]

theorem tick_countdown {n : Nat} {left : Window} (h : s.resetInput = some ⟨n + 1, left⟩) :
    tick s = act { s with resetInput := some ⟨n, left⟩ } := by
  simp [tick, orReset, h, countAction_succ s h]

/-- Everything one action of the block can do. -/
theorem tick_cases (s : State) :
    (∃ left, s.resetInput = some ⟨0, left⟩ ∧ tick s = resetNow left s) ∨
    (s.resetInput = none ∧ tick s = act s) ∨
    ∃ n left, s.resetInput = some ⟨n + 1, left⟩ ∧ tick s = act { s with resetInput := some ⟨n, left⟩ } := by
  rcases h : s.resetInput with _ | ⟨_ | n, left⟩
  · exact .inr (.inl ⟨rfl, tick_noReset h⟩)
  · exact .inl ⟨left, rfl, tick_reset h⟩
  · exact .inr (.inr ⟨n, left, rfl, tick_countdown h⟩)

theorem act_idle (h : s.inProgress = none) : act s = s := by simp [act, h]

theorem act_pending {e : Event} {es : List Event} {loop : Loop} (h : s.inProgress = some ⟨e :: es, loop⟩) :
    act s = perform e (s.setProgress (some ⟨es, loop⟩)) := by simp [act, h]

theorem act_loop {loop : Loop} (h : s.inProgress = some ⟨[], loop⟩) : act s = continueLoop loop s := by simp [act, h]

theorem continueLoop_begin {loop loop' : Loop} {mode : Mode} {rev : Bool} {t : Rat}
    (h : loop.next s.phase = some (mode, rev, t, loop')) : continueLoop loop s = beginStep mode rev t loop' s := by
  simp [continueLoop, h]

theorem continueLoop_end {loop : Loop} (h : loop.next s.phase = none) : continueLoop loop s = respond 0 s := by
  simp [continueLoop, h]

/-- Everything an action of a command in progress can do: an event lands, a write fails, a physical step begins, or the
command responds with status 0. -/
theorem act_cases {p : InProgress} (h : s.inProgress = some p) :
    (∃ e es, p.pending = e :: es ∧ act s = land (s.setProgress (some ⟨es, p.loop⟩)) e) ∨
    (∃ c w left es, p.pending = .write c w :: es ∧
      act s = raise .busError (((s.setProgress (some ⟨es, p.loop⟩)).emit (.write c w)).countDraw.setChan c left)) ∨
    (∃ mode rev t loop', p.pending = [] ∧ p.loop.next s.phase = some (mode, rev, t, loop') ∧
      act s = beginStep mode rev t loop' s) ∨
    (p.pending = [] ∧ p.loop.next s.phase = none ∧ act s = respond 0 s) := by
  obtain ⟨_ | ⟨e, es⟩, loop⟩ := p
  · rw [act_loop h]
    rcases hn : loop.next s.phase with _ | ⟨mode, rev, t, loop'⟩
    · exact .inr (.inr (.inr ⟨rfl, rfl, continueLoop_end hn⟩))
    · exact .inr (.inr (.inl ⟨mode, rev, t, loop', rfl, rfl, continueLoop_begin hn⟩))
  · rw [act_pending h]
    rcases perform_cases e (s.setProgress (some ⟨es, loop⟩)) with h1 | ⟨c, w, left, rfl, h1⟩
    · exact .inl ⟨e, es, rfl, h1⟩
    · exact .inr (.inl ⟨c, w, left, es, rfl, h1⟩)

theorem beginStep_setProgress (mode : Mode) (rev : Bool) (t : Rat) (loop : Loop) (p : Option InProgress) (s : State) :
    beginStep mode rev t loop (s.setProgress p) =
      (stepRegisters mode rev s).setProgress (some ⟨stepEvents mode t (stepRegisters mode rev s), loop⟩) := by
  cases mode <;> rfl

theorem respond_setProgress (c : BitVec 4) (p : Option InProgress) (s : State) :
    respond c (s.setProgress p) = respond c s := rfl

/-! ### The loop test -/

theorem loop_next_aligned (rev : Bool) (t : Rat) {phase : BitVec 5} (h : phase.toNat = 0 ∨ phase.toNat = 8) :
    (Loop.untilAligned rev t).next phase = none := if_pos h

theorem loop_next_notAligned (rev : Bool) (t : Rat) {phase : BitVec 5} (h : ¬ (phase.toNat = 0 ∨ phase.toNat = 8)) :
    (Loop.untilAligned rev t).next phase = some (.micro, rev, t, .untilAligned rev t) := if_neg h

/-! ### Running a command in progress -/

@[simp] theorem runTicks_zero (s : State) : runTicks 0 s = s := rfl

theorem runTicks_idle (n : Nat) (h : s.inProgress = none) : runTicks n s = s := by
  cases n <;> simp [runTicks, h]

theorem runTicks_busy (n : Nat) {p : InProgress} (h : s.inProgress = some p) :
    runTicks (n + 1) s = runTicks n (tick s) := by
  simp [runTicks, h]

/-- A property that every action of a busy block keeps is kept by a run. -/
theorem runTicks_induct {P : State → Prop} (keep : ∀ s, s.inProgress ≠ none → P s → P (tick s)) (n : Nat) (s : State) (h : P s) :
    P (runTicks n s) := by
  induction n generalizing s with
  | zero => exact h
  | succ n ih =>
    rcases hp : s.inProgress with _ | p
    · rw [runTicks_idle _ hp]; exact h
    · rw [runTicks_busy n hp]; exact ih _ (keep s (by simp [hp]) h)

/-- A property that every action of a busy block keeps holds where a command ends. -/
theorem runToEnd_induct {P : State → Prop} (keep : ∀ s, s.inProgress ≠ none → P s → P (tick s)) (s : State) (h : P s) :
    P (runToEnd s) := by
  unfold runToEnd
  split
  · exact h
  · exact runTicks_induct keep _ s h

theorem runTicks_add (m n : Nat) (s : State) : runTicks (m + n) s = runTicks n (runTicks m s) := by
  induction m generalizing s with
  | zero => simp
  | succ m ih =>
    rcases hp : s.inProgress with _ | p
    · rw [runTicks_idle _ hp, runTicks_idle _ hp, runTicks_idle _ hp]
    · rw [Nat.succ_add, runTicks_busy _ hp, runTicks_busy _ hp, ih]

theorem runCommand_eq (pending : List Event) (loop : Loop) (s : State) :
    runCommand pending loop s =
      runTicks (pending.length + 8 * loop.bound + 1) (s.setProgress (some ⟨pending, loop⟩)) := rfl

/-- Events whose writes all succeed land one after the other. -/
theorem runTicks_events (es rest : List Event) (loop : Loop) (fuel : Nat) (s : State) (hr : s.resetInput = none)
    (hok : s.BusOk (writeCount es)) :
    runTicks (es.length + fuel) (s.setProgress (some ⟨es ++ rest, loop⟩)) =
      runTicks fuel ((es.foldl land s).setProgress (some ⟨rest, loop⟩)) := by
  induction es generalizing s with
  | nil => simp
  | cons e es ih =>
    have len : (e :: es).length + fuel = (es.length + fuel) + 1 := by simp; omega
    rw [len, runTicks_busy _ (setProgress_inProgress s _), tick_noReset (by simpa using hr), List.cons_append, act_pending rfl]
    cases e with
    | dwell t => exact ih (s.emit (.dwell t)) hr hok
    | write c w =>
      have h0 : s.answerAt s.busDraws = .ok := hok 0 (by simp)
      rw [perform, chanWrite_ok c w (by simpa using h0), land_setProgress]
      refine ih (land s (.write c w)) (by simpa using hr) fun k hk => ?_
      have := hok (k + 1) (by simpa using hk)
      simpa [land, Nat.add_assoc, Nat.add_comm 1 k] using this

/-- The first failing write of some events ends the command. -/
theorem runTicks_failing_write (c : Chan) (w left : Window) (rest : List Event) (loop : Loop) (fuel : Nat) (s : State)
    (hr : s.resetInput = none) (hf : s.answerAt s.busDraws = .fail left) :
    runTicks (fuel + 1) (s.setProgress (some ⟨.write c w :: rest, loop⟩)) =
      raise .busError ((s.emit (.write c w)).countDraw.setChan c left) := by
  rw [runTicks_busy _ (setProgress_inProgress s _), tick_noReset (by simpa using hr), act_pending rfl, perform,
    chanWrite_fail c w left (by simpa using hf), runTicks_idle _ (by simp)]
  rfl

/-! ### Physical steps -/

@[simp] theorem stepEvents_length (mode : Mode) (t : Rat) (s : State) : (stepEvents mode t s).length = 7 := rfl

@[simp] theorem stepEvents_writeCount (mode : Mode) (t : Rat) (s : State) : writeCount (stepEvents mode t s) = 6 := rfl

theorem stepRegisters_setProgress (mode : Mode) (rev : Bool) (p : Option InProgress) (s : State) :
    stepRegisters mode rev (s.setProgress p) = (stepRegisters mode rev s).setProgress p := by
  cases mode <;> rfl

@[simp] theorem stepRegisters_phase (mode : Mode) (rev : Bool) (s : State) :
    (stepRegisters mode rev s).phase = advancePhase mode rev s.phase := by cases mode <;> rfl
@[simp] theorem stepRegisters_resetInput (mode : Mode) (rev : Bool) (s : State) :
    (stepRegisters mode rev s).resetInput = s.resetInput := by cases mode <;> rfl
@[simp] theorem stepRegisters_answerAt (mode : Mode) (rev : Bool) (s : State) (k : Nat) :
    (stepRegisters mode rev s).answerAt k = s.answerAt k := by cases mode <;> rfl
@[simp] theorem stepRegisters_busDraws (mode : Mode) (rev : Bool) (s : State) :
    (stepRegisters mode rev s).busDraws = s.busDraws := by cases mode <;> rfl
@[simp] theorem stepRegisters_sps (mode : Mode) (rev : Bool) (s : State) :
    (stepRegisters mode rev s).sps = s.sps := by cases mode <;> rfl
@[simp] theorem stepRegisters_fault (mode : Mode) (rev : Bool) (s : State) :
    (stepRegisters mode rev s).fault = s.fault := by cases mode <;> rfl
@[simp] theorem stepRegisters_out (mode : Mode) (rev : Bool) (s : State) :
    (stepRegisters mode rev s).out = s.out := by cases mode <;> rfl
@[simp] theorem stepRegisters_rx (mode : Mode) (rev : Bool) (s : State) :
    (stepRegisters mode rev s).rx = s.rx := by cases mode <;> rfl
@[simp] theorem stepRegisters_ch (mode : Mode) (rev : Bool) (s : State) :
    (stepRegisters mode rev s).ch = s.ch := by cases mode <;> rfl
@[simp] theorem stepRegisters_chan (mode : Mode) (rev : Bool) (s : State) (c : Chan) :
    (stepRegisters mode rev s).chan c = s.chan c := by cases mode <;> rfl
@[simp] theorem stepRegisters_busScript (mode : Mode) (rev : Bool) (s : State) :
    (stepRegisters mode rev s).busScript = s.busScript := by cases mode <;> rfl
@[simp] theorem stepRegisters_otherBusy (mode : Mode) (rev : Bool) (s : State) :
    (stepRegisters mode rev s).otherBusy = s.otherBusy := by cases mode <;> rfl

theorem physicalStep_eq (mode : Mode) (rev : Bool) (t : Rat) (s : State) :
    physicalStep mode rev t s = (stepEvents mode t (stepRegisters mode rev s)).foldl land (stepRegisters mode rev s) := rfl

@[simp] theorem physicalStep_phase (mode : Mode) (rev : Bool) (t : Rat) (s : State) :
    (physicalStep mode rev t s).phase = advancePhase mode rev s.phase := by simp [physicalStep_eq]
@[simp] theorem physicalStep_resetInput (mode : Mode) (rev : Bool) (t : Rat) (s : State) :
    (physicalStep mode rev t s).resetInput = s.resetInput := by simp [physicalStep_eq]
@[simp] theorem physicalStep_busDraws (mode : Mode) (rev : Bool) (t : Rat) (s : State) :
    (physicalStep mode rev t s).busDraws = s.busDraws + 6 := by simp [physicalStep_eq]
@[simp] theorem physicalStep_answerAt (mode : Mode) (rev : Bool) (t : Rat) (s : State) (k : Nat) :
    (physicalStep mode rev t s).answerAt k = s.answerAt k := by simp [physicalStep_eq]
@[simp] theorem physicalStep_out (mode : Mode) (rev : Bool) (t : Rat) (s : State) :
    (physicalStep mode rev t s).out =
      s.out ++ (stepEvents mode t (stepRegisters mode rev s)).map Output.event := by simp [physicalStep_eq]

/-- Less is asked of the bus by fewer writes. -/
theorem BusOk_mono {m n : Nat} (h : s.BusOk n) (hm : m ≤ n) : s.BusOk m := fun k hk => h k (by omega)

/-- After one physical step, six answers fewer are left. -/
theorem BusOk_physicalStep {mode : Mode} {rev : Bool} {t : Rat} {n : Nat} (h : s.BusOk (n + 6)) :
    (physicalStep mode rev t s).BusOk n := fun k hk => by
  have := h (k + 6) (by omega)
  simpa [Nat.add_assoc, Nat.add_comm 6 k] using this

/-- Eight actions of a command whose loop asks for a step make that physical step, where its six writes succeed. -/
theorem runTicks_step {loop loop' : Loop} {mode : Mode} {rev : Bool} {t : Rat} (fuel : Nat) (s : State)
    (hn : loop.next s.phase = some (mode, rev, t, loop')) (hr : s.resetInput = none) (hok : s.BusOk 6) :
    runTicks (8 + fuel) (s.setProgress (some ⟨[], loop⟩)) =
      runTicks fuel ((physicalStep mode rev t s).setProgress (some ⟨[], loop'⟩)) := by
  rw [show 8 + fuel = (7 + fuel) + 1 by omega, runTicks_busy _ (setProgress_inProgress s _),
    tick_noReset (by simpa using hr), act_loop rfl, continueLoop_begin (by simpa using hn),
    beginStep_setProgress]
  have := runTicks_events (stepEvents mode t (stepRegisters mode rev s)) [] loop' fuel (stepRegisters mode rev s)
    (by simpa using hr) (fun k hk => by simpa using hok k (by simpa using hk))
  simpa [physicalStep_eq] using this

/-- A loop that is over: the command responds with status 0. -/
theorem runTicks_end {loop : Loop} (fuel : Nat) (s : State) (hn : loop.next s.phase = none)
    (hr : s.resetInput = none) :
    runTicks (fuel + 1) (s.setProgress (some ⟨[], loop⟩)) = respond 0 s := by
  rw [runTicks_busy _ (setProgress_inProgress s _), tick_noReset (by simpa using hr), act_loop rfl, continueLoop_end (by simpa using hn),
    runTicks_idle _ rfl, respond_setProgress]

end Sys2Proof.Machine
end

