-- ==== Sys2Proof/Laws/Step.lean ====
section
/-! SUPPORT. Everything one step can do, said once. -/

namespace Sys2Proof.Machine

/-- What `stepAwake` can do where it goes on. -/
theorem stepAwake_cases {s t : State} (h : stepAwake s = .next t) :
    (s.inProgress ≠ none ∧ t = runToEnd s) ∨
    (s.inProgress = none ∧ takeWord s.rx = none ∧ t = orReset wait s) ∨
    (∃ w rest i, s.inProgress = none ∧ takeWord s.rx = some (w, rest) ∧ decodeWord w = .ok i ∧
      exec i ({ s with rx := rest } : State).countAction = .next t) ∨
    (∃ w rest r, s.inProgress = none ∧ takeWord s.rx = some (w, rest) ∧ decodeWord w = .error r ∧
      t = raise .illegalCommand ({ s with rx := rest } : State).countAction) := by
  unfold stepAwake at h
  split at h
  · cases h
  · rcases hp : s.inProgress with _ | p
    · simp only [hp, State.fetch] at h
      rcases ht : takeWord s.rx with _ | ⟨w, rest⟩
      · simp only [ht, Host.Outcome.next.injEq] at h
        exact .inr (.inl ⟨rfl, rfl, h.symm⟩)
      · rcases hd : decodeWord w with r | i
        · simp only [ht, hd, Host.Outcome.next.injEq] at h
          exact .inr (.inr (.inr ⟨w, rest, r, rfl, rfl, hd, h.symm⟩))
        · simp only [ht, hd] at h
          exact .inr (.inr (.inl ⟨w, rest, i, rfl, rfl, hd, h⟩))
    · simp only [hp, Host.Outcome.next.injEq] at h
      exact .inl ⟨by simp, h.symm⟩

/-- What a step can do where it goes on: a reset strikes, a command in progress runs to its end, the idle block waits,
a decoded command runs, or an illegal word is answered. -/
theorem step_cases {s t : State} (h : step s = .next t) :
    (∃ left, s.resetInput = some ⟨0, left⟩ ∧ t = resetNow left s) ∨
    (s.inProgress ≠ none ∧ t = runToEnd s) ∨
    (s.inProgress = none ∧ takeWord s.rx = none ∧ t = orReset wait s) ∨
    (∃ w rest i, s.inProgress = none ∧ takeWord s.rx = some (w, rest) ∧ decodeWord w = .ok i ∧
      exec i ({ s with rx := rest } : State).countAction = .next t) ∨
    (∃ w rest r, s.inProgress = none ∧ takeWord s.rx = some (w, rest) ∧ decodeWord w = .error r ∧
      t = raise .illegalCommand ({ s with rx := rest } : State).countAction) := by
  unfold step at h
  split at h
  · next left hl => cases h; exact .inl ⟨left, hl, rfl⟩
  · exact .inr (stepAwake_cases h)

end Sys2Proof.Machine
end

