-- ==== Sys2Proof/Tests/Slice0.lean ====
section
/-! SUPPORT. Tests. Expected values are written out from the encodings of 30_encoding and from the vectors of
95_test_vectors, never from the model. After them, a concrete witness for the hypotheses of each obligation. -/

namespace Sys2Proof.Machine

/-! ### WellFormed refuses an operand outside its field (30_encoding R68) -/

theorem test_wf_rpm : WellFormed (.setSpeed 65535) = true ∧ WellFormed (.setSpeed 65536) = false := by decide
theorem test_wf_step : WellFormed (.step (-32768) true) = true ∧ WellFormed (.step 32768 true) = false := by decide
theorem test_wf_doubleStep : WellFormed (.doubleStep 32767 false) = true ∧ WellFormed (.doubleStep (-32769) false) = false := by
  decide
theorem test_wf_interleavedStep : WellFormed (.interleavedStep 32768 false) = false := by decide
theorem test_wf_microStep : WellFormed (.microStep (-32769) false) = false := by decide
theorem test_wf_pin : WellFormed (.setPin 255 255) = true ∧ WellFormed (.setPin 256 0) = false := by decide
theorem test_wf_value : WellFormed (.setPin 0 256) = false := by decide
theorem test_assembler_refuses : assemble (.setPin 256 0) = none ∧ assemble (.step (-1) false) = some 0xFFFF0002 := by decide
theorem test_pseudo : encode nop = 0x00000000 ∧ encode (forward .step 1) = 0x00010002 ∧ encode alignForward = 0x00000006 := by
  decide

/-! ### Decoding, from words written out by their fields (30_encoding R56, R57) -/

/-- All zero. -/
theorem test_decode_getStatus : decodeWord 0b0000000000000000000000000000_0000 = .ok .getStatus := by decide
/-- `rpm` = 65535, twelve zeros, op 1. -/
theorem test_decode_setSpeed : decodeWord 0b1111111111111111_000000000000_0001 = .ok (.setSpeed 65535) := by
  decide +kernel
/-- `count` = -32768, eleven zeros, `rev` = 1, op 2. -/
theorem test_decode_step : decodeWord 0b1000000000000000_00000000000_1_0010 = .ok (.step (-32768) true) := by decide
/-- `count` = 32767, `rev` = 0, op 3. -/
theorem test_decode_doubleStep : decodeWord 0b0111111111111111_00000000000_0_0011 = .ok (.doubleStep 32767 false) := by
  decide +kernel
/-- `count` = 3, `rev` = 1, op 4. -/
theorem test_decode_interleavedStep : decodeWord 0b0000000000000011_00000000000_1_0100 = .ok (.interleavedStep 3 true) := by
  decide
/-- `count` = -5, `rev` = 0, op 5. -/
theorem test_decode_microStep : decodeWord 0b1111111111111011_00000000000_0_0101 = .ok (.microStep (-5) false) := by decide
/-- Twenty-seven zeros, `rev` = 1, op 6. -/
theorem test_decode_alignStep : decodeWord 0b000000000000000000000000000_1_0110 = .ok (.alignStep true) := by decide
/-- `value` = 2, `pin` = 129, op 7: distinct operands in distinct fields. -/
theorem test_decode_setPin : decodeWord 0b00000000_00000010_10000001_0000_0111 = .ok (.setPin 129 2) := by decide

/-- Reserved opcodes (30_encoding R63, 95_test_vectors L2-9). -/
theorem test_reserved : ∀ w ∈ [(0x00000008 : Word), 0x0000000F, 0xFFFFFFFF, 0xFFFF0008],
    decodeWord w = .error .reservedOpcode := by
  intro w hw
  simp only [List.mem_cons, List.not_mem_nil, or_false] at hw
  rcases hw with rfl | rfl | rfl | rfl <;> rfl
/-- The lowest and the highest must-be-zero bit of each range (30_encoding R62). -/
theorem test_mustBeZero : ∀ w ∈ [(0x00000010 : Word), 0x80000000, 0x003C0011, 0x003C8001, 0x00010022, 0x00018002,
    0x00000023, 0x00000024, 0x00008005, 0x00000026, 0x00010006, 0x80000006, 0x01000907, 0x80000907, 0x00011017,
    0x00010987], decodeWord w = .error .mustBeZero := by
  intro w hw
  simp only [List.mem_cons, List.not_mem_nil, or_false] at hw
  rcases hw with rfl | rfl | rfl | rfl | rfl | rfl | rfl | rfl | rfl | rfl | rfl | rfl | rfl | rfl | rfl | rfl <;> rfl

/-- Bytes are little-endian, and three bytes are no command (20_memory R43, R44). -/
theorem test_decode_bytes : decode [0x12, 0x00, 0x04, 0x00, 0xAB] = .ok (.step 4 true, [0xAB]) ∧
    decode [0x12, 0x00, 0x04] = .error .partialWord := by decide
theorem test_table_word : decodeTableWord 32 0x00010907 = some (.setPin 9 1) ∧ decodeTableWord 32 0x00000008 = none := by
  decide

/-! ### One step -/

/-- The state after reset at phase `p`, with `n` writes that succeed. -/
def ready (p : BitVec 5) (n : Nat) : State := { State.reset with phase := p, busScript := List.replicate n .ok }

/-- The first word delivered to `s`, and the state after it. -/
def runWord (w : Nat) (s : State) : Option State :=
  match step (s.withFetchWord 32 w) with
  | .next t => some t
  | .fault _ => none
  | .refused _ => none

theorem test_getStatus : (runWord 0x00000000 State.reset).map State.responses = some [0xFFFF0000] := by decide +kernel
/-- From PHASE 24, strengths 0 and 255, FAULT 3 (95_test_vectors L2-8). -/
theorem test_getStatus_fields :
    (runWord 0 { State.reset with phase := 24, pwmA := 0, pwmB := 255, fault := 3 }).map State.responses =
      some [0xFF001830] := by decide +kernel

theorem test_setSpeed : (runWord 0x003C0001 State.reset).map State.responses = some [0xFFFF0000] := by decide +kernel
theorem test_setSpeed_zero : (runWord 0x00000001 State.reset).map (fun t => (t.responses, t.fault)) =
    some ([0xFFFF0033], 3) := by decide +kernel

/-- The seven events of the example of 42_stepping R101, in its order. -/
theorem test_step_trace : (runWord 0x00010002 (ready 0 6)).map State.trace = some
    [.write Config.wiring.pwma ⟨0, 4080⟩, .write Config.wiring.pwmb ⟨0, 4080⟩, .write Config.wiring.ain2 ⟨0, 4096⟩,
      .write Config.wiring.bin1 ⟨4096, 0⟩, .write Config.wiring.ain1 ⟨0, 4096⟩, .write Config.wiring.bin2 ⟨0, 4096⟩,
      .dwell Config.sps0] := by rfl
/-- From PHASE 4, an odd index, one step moves 4; the third write of the second step fails: no dwell after it, FAULT and
status 4 (41_energize R90, R92, 95_test_vectors L2-2, L2-10). -/
theorem test_step_busError :
    (runWord 0x00020002 { ready 4 0 with busScript := List.replicate 8 .ok ++ [.fail ⟨7, 9⟩] }).map
      (fun t => (t.responses, t.trace.length)) = some ([0xFFFF1044], 10) := by decide +kernel

theorem test_doubleStep : (runWord 0x00020003 (ready 0 12)).map (fun t => (t.phase, t.responses, t.trace.length)) =
    some (12, [0xFFFF0C00], 14) := by decide +kernel
/-- In reverse from 4 (k = 1, odd) to 28 (95_test_vectors L2-3). -/
theorem test_doubleStep_reverse : (runWord 0x00010013 (ready 4 6)).map State.phase = some 28 := by decide +kernel

theorem test_interleavedStep : (runWord 0x00030014 (ready 0 18)).map State.responses = some [0xFFFF1400] := by
  decide +kernel
/-- The wrap from 30 to 2 (95_test_vectors L2-4). -/
theorem test_interleavedStep_wrap : (runWord 0x00010004 (ready 30 6)).map State.phase = some 2 := by decide +kernel

/-- From 28 through the wrap to 4 (95_test_vectors L2-5). -/
theorem test_microStep_wrap : (runWord 0x00010005 (ready 28 48)).map State.responses = some [0xB4B40400] := by
  decide +kernel
theorem test_microStep_negative : (runWord 0xFFFB0005 { ready 3 0 with pwmA := 1, pwmB := 2 }).map
    (fun t => (t.responses, t.trace.length)) = some ([0x02010300], 0) := by decide +kernel

/-- From 24 forward, eight steps to 0 (42_stepping R105). -/
theorem test_alignStep : (runWord 0x00000006 (ready 24 48)).map (fun t => (t.responses, t.trace.length)) =
    some ([0x00FF0000], 56) := by decide +kernel
/-- From 31 in reverse, 23 steps to 8 (95_test_vectors L2-6). -/
theorem test_alignStep_longest : (runWord 0x00000016 (ready 31 138)).map (fun t => (t.responses, t.trace.length)) =
    some ([0xFF000800], 161) := by decide +kernel

theorem test_setPin : (runWord 0x00010907 (ready 0 1)).map (fun t => (t.trace, t.chan 9, t.responses)) =
    some ([.write 9 ⟨4096, 0⟩], ⟨4096, 0⟩, [0xFFFF0000]) := by decide +kernel
theorem test_setPin_illegal : (runWord 0x00011007 State.reset).map State.responses = some [0xFFFF0022] := by
  decide +kernel

/-- A reset after the word is taken cuts the one write: no response, and the channel holds what the cut leaves
(70_reset_and_hazards R152). -/
theorem test_setPin_cut : (match step (hostResetLater 1 ⟨7, 9⟩ ((ready 3 1).deliverFirst 0x00010907)) with
    | .next t => some (t.chan 9, t.phase, t.responses)
    | _ => none) = some (⟨7, 9⟩, 0, []) := by decide +kernel

theorem test_illegalWord : (runWord 0x0000000A State.reset).map State.responses = some [0xFFFF0055] := by decide +kernel
/-- The first error is kept (95_test_vectors P3, command 5). -/
theorem test_illegalWord_sticky : (runWord 0x00000008 { ready 24 0 with fault := 3 }).map State.responses =
    some [0xFFFF1835] := by decide +kernel

/-! ### Witnesses: concrete states and operands that meet the hypotheses of the obligations -/

/-- `n` listed answers `ok` make a state quiet for `n` writes. -/
theorem ready_quiet (p : BitVec 5) (n : Nat) : (ready p n).Quiet n :=
  ⟨rfl, fun k hk => by simp [State.answerAt, ready, State.reset, hk]⟩

theorem ready_quiet_le {m n : Nat} (p : BitVec 5) (h : m ≤ n) : (ready p n).Quiet m :=
  ⟨rfl, BusOk_mono (ready_quiet p n).2 h⟩

/-- The state `ready p n` whose write number `n` fails. -/
def failing (p : BitVec 5) (n : Nat) (left : Window) : State :=
  { ready p 0 with busScript := List.replicate n .ok ++ [.fail left] }

theorem failing_ok (p : BitVec 5) (n : Nat) (left : Window) : (failing p n left).BusOk n := fun k hk => by
  simp [State.answerAt, failing, ready, State.reset, List.getElem?_append, hk]

theorem failing_fail (p : BitVec 5) (n : Nat) (left : Window) :
    (failing p n left).answerAt ((failing p n left).busDraws + n) = .fail left := by
  simp [State.answerAt, failing, ready, State.reset]

theorem witness_DecodeOfEncode : WellFormed (.step (-32768) true) = true ∧ WellFormed (.setPin 255 255) = true := by decide

theorem witness_EncodeOfDecode : decodeWord 0xFFFF0012 = .ok (.step (-1) true) := by decide

theorem witness_EveryWordIsCommandOrIllegal :
    8 ≤ (0x00000018 : Word).toNat % 16 ∧
    ((0x00010002 : Word).toNat % 16 < 8 ∧ (0x00010002 : Word) &&& mustBeZeroMask 2 = 0) ∧
    ((0x00000017 : Word).toNat % 16 < 8 ∧ (0x00000017 : Word) &&& mustBeZeroMask 7 ≠ 0) := by decide

/-- A state that meets the premises of a step, with the word `w` waiting. -/
def waiting (w : Word) : State := { State.reset with rx := wordBytes w }

theorem witness_StepRunsDecodedCommand :
    (waiting 0x00000016).resetInput = none ∧ (waiting 0x00000016).otherBusy = false ∧
    (waiting 0x00000016).inProgress = none ∧ takeWord (waiting 0x00000016).rx = some (0x00000016, []) ∧
    decodeWord 0x00000016 = .ok (.alignStep true) := by decide

theorem witness_IllegalWordRaisesIllegalCommand :
    (waiting 0x0000000A).resetInput = none ∧ (waiting 0x0000000A).otherBusy = false ∧
    (waiting 0x0000000A).inProgress = none ∧ takeWord (waiting 0x0000000A).rx = some (0x0000000A, []) ∧
    decodeWord 0x0000000A = .error .reservedOpcode ∧ decodeWord 0x00000010 = .error .mustBeZero := by decide

theorem witness_PartialWordWaits :
    (hostByte 1 (hostByte 1 (hostByte 1 State.reset))).resetInput = none ∧
    (hostByte 1 (hostByte 1 (hostByte 1 State.reset))).inProgress = none ∧
    (hostByte 1 (hostByte 1 (hostByte 1 State.reset))).rx.length < 4 := by decide

theorem witness_OverlapIsRefused :
    (hostOtherBlock true (waiting 0)).otherBusy = true ∧ 4 ≤ (hostOtherBlock true (waiting 0)).rx.length ∧
    ∀ left, (hostOtherBlock true (waiting 0)).resetInput ≠ some ⟨0, left⟩ := ⟨rfl, by decide, by intro left h; cases h⟩

/-- A block found with a command in progress, at a write of channel 5. -/
def busy : State := State.reset.setProgress (some ⟨[.write 5 ⟨4096, 0⟩], .finished⟩)

theorem witness_OverlapIsRefused_busy :
    (hostOtherBlock true busy).otherBusy = true ∧ (hostOtherBlock true busy).inProgress ≠ none := by
  refine ⟨rfl, fun h => ?_⟩
  cases h

theorem witness_StepLeavesBlockIdle : step { busy with busScript := [.ok] } =
    .next (runToEnd { busy with busScript := [.ok] }) := rfl

theorem witness_ResetStrikes_idle :
    (hostResetLater 0 ⟨1, 2⟩ State.reset).resetInput = some ⟨0, ⟨1, 2⟩⟩ ∧
    (hostResetLater 0 ⟨1, 2⟩ State.reset).inProgress = none := by decide

theorem witness_ResetStrikes_cutWrite :
    (hostResetLater 0 ⟨1, 2⟩ busy).resetInput = some ⟨0, ⟨1, 2⟩⟩ ∧
    (hostReset ⟨1, 2⟩ (hostResetLater 0 ⟨1, 2⟩ busy)).chan 5 = ⟨1, 2⟩ := by decide +kernel

/-- A reset before the start of STEP 1, before its sixth write, before its dwell, and before its response. -/
theorem witness_ResetAbandonsStep : ∀ p ∈ [(0, 0), (0, 6), (0, 7), (1, 0)],
    (hostResetLater (8 * p.1 + p.2) ⟨1, 2⟩ (ready 0 6)).BusOk (6 * (1 : Int).toNat) ∧
    (hostResetLater (8 * p.1 + p.2) ⟨1, 2⟩ (ready 0 6)).resetInput = some ⟨8 * p.1 + p.2, ⟨1, 2⟩⟩ ∧
    p.2 < 8 ∧ 8 * p.1 + p.2 < 8 * (1 : Int).toNat + 1 := by
  intro p hp
  refine ⟨(ready_quiet 0 6).2, rfl, ?_⟩
  revert p
  decide

/-- The same for MICRO_STEP 1, whose last action is its 65th, and for the longest ALIGN_STEP, whose last is its 185th. -/
theorem witness_ResetAbandonsStep_micro : ∀ p ∈ [(0, 1), (7, 6), (8, 0)],
    (hostResetLater (8 * p.1 + p.2) ⟨1, 2⟩ (ready 0 48)).BusOk (6 * ((1 : Int).toNat * 8)) ∧
    (hostResetLater (8 * p.1 + p.2) ⟨1, 2⟩ (ready 0 48)).resetInput = some ⟨8 * p.1 + p.2, ⟨1, 2⟩⟩ ∧
    p.2 < 8 ∧ 8 * p.1 + p.2 < 8 * ((1 : Int).toNat * 8) + 1 := by
  intro p hp
  refine ⟨(ready_quiet 0 48).2, rfl, ?_⟩
  revert p
  decide

theorem witness_ResetAbandonsStep_align : ∀ p ∈ [(22, 7), (23, 0)],
    (hostResetLater (8 * p.1 + p.2) ⟨1, 2⟩ (ready 9 138)).BusOk (6 * alignSteps false (ready 9 138).phase.toNat) ∧
    (hostResetLater (8 * p.1 + p.2) ⟨1, 2⟩ (ready 9 138)).resetInput = some ⟨8 * p.1 + p.2, ⟨1, 2⟩⟩ ∧
    p.2 < 8 ∧ 8 * p.1 + p.2 < 8 * alignSteps false (ready 9 138).phase.toNat + 1 := by
  intro p hp
  refine ⟨(ready_quiet 9 138).2, rfl, ?_⟩
  revert p
  decide

theorem witness_CommandEndsInResponseOrReset :
    exec (.step 1 false) (ready 0 6) = .next (runCommand [] (.counted .whole false Config.sps0 1) (fullStrength (ready 0 6))) :=
  rfl

theorem witness_MicrostepInterpolation : ∀ p ∈ [(0 : BitVec 5), 7, 8, 15, 16, 23, 24, 31],
    (ready p 0).phase.toNat < 8 ∨ (8 ≤ (ready p 0).phase.toNat ∧ (ready p 0).phase.toNat < 16) ∨
    (16 ≤ (ready p 0).phase.toNat ∧ (ready p 0).phase.toNat < 24) ∨ 24 ≤ (ready p 0).phase.toNat := by decide

theorem witness_CoilCounts : (4 : BitVec 5).toNat / 4 % 2 = 1 ∧ (31 : BitVec 5).toNat / 4 % 2 = 1 ∧
    (0 : BitVec 5).toNat / 4 % 2 = 0 ∧ (27 : BitVec 5).toNat / 4 % 2 = 0 := by decide

theorem witness_GetStatusReports : State.reset.inProgress = none := rfl

theorem witness_SetSpeedSetsPace : State.reset.inProgress = none ∧ 1 ≠ 0 ∧ 65535 ≠ 0 := by decide

theorem witness_SetSpeedZeroIsDivisionFault : ({ State.reset with fault := 4 } : State).inProgress = none := rfl

/-- Counts 2 and -1, for STEP, DOUBLE_STEP and INTERLEAVED_STEP alike. -/
theorem witness_StepRuns : ((2 : Nat) : Int) = max 2 0 ∧ (ready 28 12).Quiet (6 * 2) ∧
    ((0 : Nat) : Int) = max (-1) 0 ∧ (ready 28 0).Quiet (6 * 0) :=
  ⟨rfl, ready_quiet 28 12, rfl, ready_quiet 28 0⟩

theorem witness_DoubleStepRuns : ((2 : Nat) : Int) = max 2 0 ∧ (ready 0 12).Quiet (6 * 2) := ⟨rfl, ready_quiet 0 12⟩

theorem witness_InterleavedStepRuns : ((2 : Nat) : Int) = max 2 0 ∧ (ready 30 12).Quiet (6 * 2) :=
  ⟨rfl, ready_quiet 30 12⟩

theorem witness_MicroStepRuns : ((8 : Nat) : Int) = max 1 0 * 8 ∧ (ready 28 48).Quiet (6 * 8) := ⟨rfl, ready_quiet 28 48⟩

/-- The longest alignments, 23 steps, and none. -/
theorem witness_AlignStepRuns : (ready 9 138).Quiet (6 * alignSteps false (ready 9 138).phase.toNat) ∧
    (ready 31 138).Quiet (6 * alignSteps true (ready 31 138).phase.toNat) ∧
    (ready 8 0).Quiet (6 * alignSteps false (ready 8 0).phase.toNat) :=
  ⟨ready_quiet 9 138, ready_quiet 31 138, ready_quiet 8 0⟩

theorem witness_SetPinDrivesPin : 15 ≤ 15 ∧ 1 ≤ 1 ∧ (15 : Chan).val = 15 ∧
    (⟨4096, 0⟩ : Window) = (if 1 = 1 then ⟨4096, 0⟩ else ⟨0, 4096⟩) ∧ (ready 0 1).Quiet 1 :=
  ⟨by decide, by decide, rfl, rfl, ready_quiet 0 1⟩

theorem witness_SetPinRejectsBadArguments : State.reset.inProgress = none ∧ (16 > 15 ∨ 0 > 1) ∧ (0 > 15 ∨ 2 > 1) := by decide

theorem witness_NoStepsForCountZeroOrLess : (0 : Int) ≤ 0 ∧ (-32768 : Int) ≤ 0 ∧ (ready 12 0).resetInput = none := by decide

/-- The third write of the last of two steps fails; for MICRO_STEP 1, the first write of the last of eight. -/
theorem witness_SteppingStopsAtBusError : (failing 0 8 ⟨7, 9⟩).resetInput = none ∧ 2 < 6 ∧
    (failing 0 8 ⟨7, 9⟩).BusOk (6 * 1 + 2) ∧
    (failing 0 8 ⟨7, 9⟩).answerAt ((failing 0 8 ⟨7, 9⟩).busDraws + (6 * 1 + 2)) = .fail ⟨7, 9⟩ ∧ 1 < (2 : Int).toNat :=
  ⟨rfl, by decide, failing_ok 0 8 _, failing_fail 0 8 _, by decide⟩

theorem witness_SteppingStopsAtBusError_micro : (failing 0 42 ⟨7, 9⟩).resetInput = none ∧ 0 < 6 ∧
    (failing 0 42 ⟨7, 9⟩).BusOk (6 * 7 + 0) ∧
    (failing 0 42 ⟨7, 9⟩).answerAt ((failing 0 42 ⟨7, 9⟩).busDraws + (6 * 7 + 0)) = .fail ⟨7, 9⟩ ∧ 7 < (1 : Int).toNat * 8 :=
  ⟨rfl, by decide, failing_ok 0 42 _, failing_fail 0 42 _, by decide⟩

theorem witness_AlignStopsAtBusError : (failing 9 137 ⟨7, 9⟩).resetInput = none ∧ 5 < 6 ∧
    22 < alignSteps false (failing 9 137 ⟨7, 9⟩).phase.toNat ∧ (failing 9 137 ⟨7, 9⟩).BusOk (6 * 22 + 5) ∧
    (failing 9 137 ⟨7, 9⟩).answerAt ((failing 9 137 ⟨7, 9⟩).busDraws + (6 * 22 + 5)) = .fail ⟨7, 9⟩ :=
  ⟨rfl, by decide, by decide, failing_ok 9 137 _, failing_fail 9 137 _⟩

theorem witness_SetPinBusError : 0 ≤ 15 ∧ 0 ≤ 1 ∧ (0 : Chan).val = 0 ∧
    (⟨0, 4096⟩ : Window) = (if 0 = 1 then ⟨4096, 0⟩ else ⟨0, 4096⟩) ∧ (failing 0 0 ⟨7, 9⟩).resetInput = none ∧
    (failing 0 0 ⟨7, 9⟩).answerAt (failing 0 0 ⟨7, 9⟩).busDraws = .fail ⟨7, 9⟩ :=
  ⟨by decide, by decide, rfl, rfl, rfl, failing_fail 0 0 _⟩

theorem witness_OneResponsePerCommand : (ready 0 6).resetInput = none ∧
    ∃ t, exec (.step 1 false) (ready 0 6) = .next t := ⟨rfl, _, rfl⟩

/-- One run for each status a command can report: 0, 2, 3 and 4. -/
theorem witness_ErrorCauses : State.reset.resetInput = none ∧
    (∃ t, exec .getStatus State.reset = .next t ∧ t.out = [] ++ [.response (t.responseWord 0)]) ∧
    (∃ t, exec (.setPin 16 1) State.reset = .next t ∧ t.out = [] ++ [.response (t.responseWord 2)]) ∧
    (∃ t, exec (.setSpeed 0) State.reset = .next t ∧ t.out = [] ++ [.response (t.responseWord 3)]) ∧
    (failing 0 0 ⟨7, 9⟩).resetInput = none ∧
    ∃ t, exec (.setPin 15 1) (failing 0 0 ⟨7, 9⟩) = .next t ∧
      t.out = [.event (.write 15 ⟨4096, 0⟩)] ++ [.response (t.responseWord 4)] :=
  ⟨rfl, ⟨_, rfl, rfl⟩, ⟨_, rfl, rfl⟩, ⟨_, rfl, rfl⟩, rfl, _, rfl, rfl⟩

/-- A channel outside the six of this stepper: signal 13 is no stepper's. -/
theorem witness_SteppingFrame : isStepping (.microStep 1 true) = true ∧ (ready 0 48).resetInput = none ∧
    (∃ t, exec (.microStep 1 true) (ready 0 48) = .next t) ∧ Config.wiringPerm 13 ∉ motorChans := by
  refine ⟨rfl, rfl, ⟨_, rfl⟩, ?_⟩
  unfold motorChans Config.wiring
  cases Config.motorId <;> simp [Config.wiringOf]

theorem witness_SetPinFrame : (ready 0 1).resetInput = none ∧ (∃ t, exec (.setPin 15 1) (ready 0 1) = .next t) ∧
    (∃ t, exec (.setPin 15 2) (ready 0 1) = .next t) ∧ ((14 : Chan).val ≠ 15 ∨ 1 > 1) ∧ ((15 : Chan).val ≠ 15 ∨ 2 > 1) :=
  ⟨rfl, ⟨_, rfl⟩, ⟨_, rfl⟩, by decide, by decide⟩

theorem witness_WholeStepCommandsKeepFullStrength : (failing 0 8 ⟨7, 9⟩).resetInput = none ∧
    (∃ t, exec (.step 2 false) (failing 0 8 ⟨7, 9⟩) = .next t) ∧
    (∃ t, exec (.doubleStep 2 false) (failing 0 8 ⟨7, 9⟩) = .next t) ∧
    ∃ t, exec (.interleavedStep 2 false) (failing 0 8 ⟨7, 9⟩) = .next t := ⟨rfl, ⟨_, rfl⟩, ⟨_, rfl⟩, _, rfl⟩

theorem witness_FaultIsSticky : ({ waiting 0x00000008 with fault := 3 } : State).resetInput = none ∧
    (∃ t, step { waiting 0x00000008 with fault := 3 } = .next t) ∧
    ({ waiting 0x00000008 with fault := 3 } : State).fault ≠ 0 := ⟨rfl, ⟨_, rfl⟩, by decide⟩

theorem witness_ChannelsAreNeverRead : ∃ t, exec (.alignStep false) (ready 31 6) = .next t := ⟨_, rfl⟩

theorem witness_PaceShowsOnlyInDwells : ∃ t, exec (.interleavedStep 2 true) (ready 0 12) = .next t := ⟨_, rfl⟩

/-- A reset state with the smallest illegal word waiting meets the invariant and has a next state. -/
theorem witness_StepKeepsInvariant : MachineInv (waiting 0x00000008) ∧ ∃ t, step (waiting 0x00000008) = .next t := by
  refine ⟨⟨?_, .inl rfl, by simp [waiting, State.reset], by simp [waiting, State.reset]⟩, _, rfl⟩
  have h1 := Config.sps0Num.pos
  have h2 := Config.sps0Den.pos
  show 0 < Config.sps0
  unfold Config.sps0
  positivity

/-- Two commands one after the other, from an even and from an odd half-step index. -/
theorem witness_StepRoundTrip : ∀ p ∈ [(0 : BitVec 5), 4], (ready p 12).Quiet (12 * 1) ∧
    ∃ t u, exec (.step (1 : Nat) false) (ready p 12) = .next t ∧ exec (.step (1 : Nat) true) t = .next u :=
  fun p _ => ⟨ready_quiet p 12, _, _, rfl, rfl⟩

theorem witness_DoubleStepRoundTrip : ∀ p ∈ [(0 : BitVec 5), 4], (ready p 12).Quiet (12 * 1) ∧
    ∃ t u, exec (.doubleStep (1 : Nat) false) (ready p 12) = .next t ∧ exec (.doubleStep (1 : Nat) true) t = .next u :=
  fun p _ => ⟨ready_quiet p 12, _, _, rfl, rfl⟩

theorem witness_InterleavedAndMicroRoundTrip : (ready 5 12).Quiet (12 * 1) ∧ (ready 5 96).Quiet (96 * 1) ∧
    (∃ t u, exec (.interleavedStep (1 : Nat) false) (ready 5 12) = .next t ∧
      exec (.interleavedStep (1 : Nat) true) t = .next u) ∧
    ∃ t u, exec (.microStep (1 : Nat) false) (ready 5 96) = .next t ∧ exec (.microStep (1 : Nat) true) t = .next u :=
  ⟨ready_quiet 5 12, ready_quiet 5 96, ⟨_, _, rfl, rfl⟩, _, _, rfl, rfl⟩

theorem witness_AlignIsIdempotent : (ready 8 0).resetInput = none ∧
    ∃ t, exec (.alignStep true) (ready 8 0) = .next t ∧ t.out = [] ++ [.response (t.responseWord 0)] :=
  ⟨rfl, _, rfl, rfl⟩

/-- The same, after an alignment that runs one step, from 31 to 0. -/
theorem witness_AlignIsIdempotent_steps : (ready 31 6).resetInput = none ∧
    ∃ t before, exec (.alignStep false) (ready 31 6) = .next t ∧ t.out = before ++ [.response (t.responseWord 0)] := by
  have ends : ∀ x : State, (respond 0 x).out = x.out ++ [.response ((respond 0 x).responseWord 0)] := fun _ => rfl
  have run : exec (.alignStep false) (ready 31 6) =
      .next (respond 0 (physicalStep .micro false (microDwell (ready 31 6)) (ready 31 6))) := by
    rw [exec, execAlignStep, runCommand_eq, List.length_nil, Loop.bound, Config.M, show 0 + 8 * (4 * 8) + 1 = 8 + (248 + 1) from rfl,
      runTicks_step _ _ (loop_next_notAligned _ _ (by decide)) rfl (ready_quiet 31 6).2,
      runTicks_end _ _ (loop_next_aligned _ _ (by decide)) rfl]
  exact ⟨rfl, _, (physicalStep .micro false (microDwell (ready 31 6)) (ready 31 6)).out, run, ends _⟩

/-- Each of the four commands run for one step from the classes of 42_stepping R108, reporting success. -/
theorem witness_PhaseClassesKept : (ready 0 6).resetInput = none ∧
    (∃ t before, exec (.step 1 false) (ready 0 6) = .next t ∧ t.out = before ++ [.response (t.responseWord 0)]) ∧
    (ready 0 6).phase.toNat / 4 % 2 = 0 ∧
    (∃ t before, exec (.doubleStep 1 false) (ready 4 6) = .next t ∧ t.out = before ++ [.response (t.responseWord 0)]) ∧
    (ready 4 6).phase.toNat / 4 % 2 = 1 ∧
    (∃ t before, exec (.interleavedStep 1 true) (ready 5 6) = .next t ∧ t.out = before ++ [.response (t.responseWord 0)]) ∧
    ∃ t before, exec (.microStep 0 true) (ready 5 0) = .next t ∧ t.out = before ++ [.response (t.responseWord 0)] := by
  refine ⟨rfl, ⟨_, (stepEvents .whole Config.sps0 (stepRegisters .whole false (fullStrength (ready 0 6)))).map .event, rfl, rfl⟩,
    rfl, ⟨_, (stepEvents .double Config.sps0 (stepRegisters .double false (fullStrength (ready 4 6)))).map .event, rfl, rfl⟩,
    rfl, ⟨_, (stepEvents .interleave (halfDwell State.reset)
      (stepRegisters .interleave true (fullStrength (ready 5 6)))).map .event, rfl, rfl⟩, _, [], rfl, rfl⟩

theorem witness_StepDrivesCoilsOfFinalPhase : (0 : Int) < 1 ∧ (ready 28 6).Quiet (6 * (1 : Int).toNat) ∧
    (∃ t, exec (.step 1 false) (ready 28 6) = .next t) ∧ (∃ t, exec (.doubleStep 1 true) (ready 28 6) = .next t) ∧
    ∃ t, exec (.interleavedStep 1 true) (ready 28 6) = .next t :=
  ⟨by decide, ready_quiet 28 6, ⟨_, rfl⟩, ⟨_, rfl⟩, _, rfl⟩

theorem witness_StepDrivesCoilsOfFinalPhase_micro :
    ((0 : Int) < 1 ∧ (ready 28 48).Quiet (6 * ((1 : Int).toNat * 8)) ∧ ∃ t, exec (.microStep 1 false) (ready 28 48) = .next t) ∧
    (0 < alignSteps false (ready 31 6).phase.toNat ∧ (ready 31 6).Quiet (6 * alignSteps false (ready 31 6).phase.toNat) ∧
      ∃ t, exec (.alignStep false) (ready 31 6) = .next t) :=
  ⟨⟨by decide, ready_quiet 28 48, _, rfl⟩, by decide, ready_quiet 31 6, _, rfl⟩

/-- DOUBLE_STEP in reverse from 12 turns AIN2 on while AIN1 is still high, and MICRO_STEP forward from 31 turns BIN1 on
while BIN2 is still high (70_reset_and_hazards R157). -/
theorem witness_TransientPins :
    ((ready 12 6).setChan Config.wiring.ain1 (pinWindow true)).Quiet 6 ∧
    ((ready 12 6).setChan Config.wiring.ain1 (pinWindow true)).chan Config.wiring.ain1 = pinWindow true ∧
    (coils (Mode.double = .micro) (stepRegisters .double true (ready 12 6)).phase).ain2 = true ∧
    ((ready 31 6).setChan Config.wiring.bin2 (pinWindow true)).Quiet 6 ∧
    ((ready 31 6).setChan Config.wiring.bin2 (pinWindow true)).chan Config.wiring.bin2 = pinWindow true ∧
    (coils (Mode.micro = .micro) (stepRegisters .micro false (ready 31 6)).phase).bin1 = true :=
  ⟨ready_quiet 12 6, by simp, by decide, ready_quiet 31 6, by simp, by decide⟩

theorem witness_RepeatedSetPinWritesAgain : 15 ≤ 15 ∧ 1 ≤ 1 ∧ (15 : Chan).val = 15 ∧ (ready 0 2).Quiet 2 ∧
    ∃ t u, exec (.setPin 15 1) (ready 0 2) = .next t ∧ exec (.setPin 15 1) t = .next u :=
  ⟨by decide, by decide, rfl, ready_quiet 0 2, _, _, rfl, rfl⟩

/-- `SET_PIN 15, 1` waits and a reset comes once the block has taken it. -/
theorem witness_ResetCutsSetPinWrite :
    (hostResetLater 1 ⟨7, 9⟩ (waiting 0x00010F07)).resetInput = some ⟨1, ⟨7, 9⟩⟩ ∧
    (hostResetLater 1 ⟨7, 9⟩ (waiting 0x00010F07)).otherBusy = false ∧
    (hostResetLater 1 ⟨7, 9⟩ (waiting 0x00010F07)).inProgress = none ∧
    takeWord (hostResetLater 1 ⟨7, 9⟩ (waiting 0x00010F07)).rx = some (0x00010F07, []) ∧
    decodeWord 0x00010F07 = .ok (.setPin 15 1) ∧ 15 ≤ 15 ∧ 1 ≤ 1 ∧ (15 : Chan).val = 15 := by decide

/-- A board whose parameters are legal, and the same with MOTOR_ID 3 (95_test_vectors L1-8; the wiring and the curve are
the general-knowledge instances of 93_implementation_defined G1 and G2). -/
def board (motorId : Int) : Config.RawParams where
  m       := 8
  curve   := [0, 50, 98, 142, 180, 212, 236, 250, 255]
  motorId := motorId
  steps   := 200
  wiring1 := [8, 9, 10, 13, 12, 11]
  wiring2 := [2, 3, 4, 7, 6, 5]
  sps0    := 1 / 10

theorem witness_ElaborationChecksParameters : elaborate (board 1) = .ok (board 1) ∧ elaborate (board 2) = .ok (board 2) ∧
    elaborate (board 3) = .error .invalidConfiguration ∧
    elaborate { board 1 with wiring2 := [2, 3, 4, 7, 6, 8] } = .error .invalidConfiguration := by decide +kernel

end Sys2Proof.Machine
end

section
/-! PROOFS. The family 00_scope: a step takes the next word and runs the command it decodes to, and every step that goes
on leaves the block idle. -/

namespace Sys2Proof.Machine

variable {s : State}

/-! ### Taking a command word -/

theorem step_noReset (h : s.resetInput = none) : step s = stepAwake s := by simp [step, h]

theorem fetch_of_takeWord {w : Word} {rest : List Byte} (h : takeWord s.rx = some (w, rest)) :
    s.fetch = some (w, { s with rx := rest }) := by simp [State.fetch, h]

/-- An awake idle block with the bus free takes a word that is a command, counts one action, and runs the command. -/
theorem stepAwake_command {w : Word} {rest : List Byte} {i : Instr} (hbus : s.otherBusy = false)
    (hidle : s.inProgress = none) (htake : takeWord s.rx = some (w, rest)) (hdec : decodeWord w = .ok i) :
    stepAwake s = exec i ({ s with rx := rest } : State).countAction := by
  simp [stepAwake, hbus, hidle, fetch_of_takeWord htake, hdec]

/-- Settles O7: with no reset coming `step` is `stepAwake`, and taking the word counts nothing. -/
theorem stepRunsDecodedCommand : Obligations.StepRunsDecodedCommand := by
  intro s w rest i hreset hbus hidle htake hdec
  rw [step_noReset hreset, stepAwake_command hbus hidle htake hdec,
    countAction_noReset { s with rx := rest } hreset]

/-! ### How many physical steps a loop still has to run -/

/-- One microstep moves PHASE by one, with wrap (41_energize R90). -/
theorem advancePhase_micro_toNat (rev : Bool) (p : BitVec 5) :
    (advancePhase .micro rev p).toNat = if rev then (p.toNat + 31) % 32 else (p.toNat + 1) % 32 := by
  have := p.isLt
  cases rev with
  | false => simp [advancePhase, signedDelta, stepDistance]; omega
  | true => simp [advancePhase, signedDelta, stepDistance]; omega

theorem alignSteps_le (rev : Bool) {p : Nat} (hp : p < 32) : alignSteps rev p ≤ 32 := by
  unfold alignSteps
  split_ifs <;> omega

/-- A microstep from a PHASE that is not aligned leaves ALIGN_STEP one step fewer (42_stepping R107). -/
theorem alignSteps_advancePhase (rev : Bool) {p : BitVec 5} (h : ¬ (p.toNat = 0 ∨ p.toNat = 8)) :
    alignSteps rev (advancePhase .micro rev p).toNat + 1 = alignSteps rev p.toNat := by
  have := p.isLt
  rw [advancePhase_micro_toNat]
  unfold alignSteps
  cases rev <;> simp only [Bool.false_eq_true, if_true, if_false] <;> split_ifs <;> omega

/-- The physical steps that a loop still asks for from PHASE `phase`. -/
def Loop.stepsLeft (phase : BitVec 5) : Loop → Nat
  | .finished => 0
  | .counted _ _ _ n => n
  | .untilAligned rev _ => alignSteps rev phase.toNat

theorem Loop.stepsLeft_le_bound (phase : BitVec 5) (loop : Loop) : loop.stepsLeft phase ≤ loop.bound := by
  cases loop with
  | finished => exact le_rfl
  | counted mode rev t n => exact le_rfl
  | untilAligned rev t => exact alignSteps_le rev phase.isLt

/-- Each physical step that a loop asks for leaves it one fewer. -/
theorem Loop.stepsLeft_next {phase : BitVec 5} {loop loop' : Loop} {mode : Mode} {rev : Bool} {t : Rat}
    (h : loop.next phase = some (mode, rev, t, loop')) :
    loop'.stepsLeft (advancePhase mode rev phase) + 1 = loop.stepsLeft phase := by
  cases loop with
  | finished => cases h
  | counted m r u n =>
    cases n with
    | zero => cases h
    | succ n => cases h; rfl
  | untilAligned r u =>
    by_cases ha : phase.toNat = 0 ∨ phase.toNat = 8
    · rw [loop_next_aligned r u ha] at h; cases h
    · rw [loop_next_notAligned r u ha] at h; cases h
      exact alignSteps_advancePhase _ ha

/-! ### How many actions a command in progress has left -/

/-- The actions that the command in progress still has to make where no write fails and no reset comes: its pending
events, eight for each physical step after them, and the response; 0 where the block is idle. -/
def State.actionsLeft (s : State) : Nat :=
  match s.inProgress with
  | none => 0
  | some p => p.pending.length + 8 * p.loop.stepsLeft s.phase + 1

theorem actionsLeft_idle (h : s.inProgress = none) : s.actionsLeft = 0 := by simp [State.actionsLeft, h]

theorem actionsLeft_busy {p : InProgress} (h : s.inProgress = some p) :
    s.actionsLeft = p.pending.length + 8 * p.loop.stepsLeft s.phase + 1 := by simp [State.actionsLeft, h]

/-- The bound on the actions of a command (log entry 15) is never too small. -/
theorem actionsLeft_le_actions {p : InProgress} (h : s.inProgress = some p) : s.actionsLeft ≤ p.actions := by
  have := p.loop.stepsLeft_le_bound s.phase
  rw [actionsLeft_busy h, InProgress.actions]
  omega

theorem act_actionsLeft_lt {p : InProgress} (h : s.inProgress = some p) : (act s).actionsLeft < s.actionsLeft := by
  rw [actionsLeft_busy h]
  rcases act_cases h with ⟨e, es, hp, ha⟩ | ⟨c, w, left, es, hp, ha⟩ | ⟨mode, rev, t, loop', hp, hn, ha⟩ | ⟨hp, hn, ha⟩
  · have hb : (act s).inProgress = some ⟨es, p.loop⟩ := by simp [ha]
    have hphase : (act s).phase = s.phase := by simp [ha]
    simp only [actionsLeft_busy hb, hphase, hp, List.length_cons]
    omega
  · rw [actionsLeft_idle (by simp [ha])]; omega
  · have hb : (act s).inProgress = some ⟨stepEvents mode t (stepRegisters mode rev s), loop'⟩ := by rw [ha]; rfl
    have hphase : (act s).phase = advancePhase mode rev s.phase := by simp [ha, beginStep]
    have hleft := Loop.stepsLeft_next hn
    simp only [actionsLeft_busy hb, hphase, stepEvents_length, hp, List.length_nil]
    omega
  · rw [actionsLeft_idle (by simp [ha])]; omega

@[simp] theorem resetNow_inProgress (left : Window) (s : State) : (resetNow left s).inProgress = none := rfl

/-- Each action of a busy block, and a reset too, brings the end of its command nearer. -/
theorem tick_actionsLeft_lt {p : InProgress} (h : s.inProgress = some p) : (tick s).actionsLeft < s.actionsLeft := by
  rcases tick_cases s with ⟨left, -, ht⟩ | ⟨-, ht⟩ | ⟨n, left, -, ht⟩ <;> rw [ht]
  · rw [actionsLeft_idle (resetNow_inProgress left s), actionsLeft_busy h]; omega
  · exact act_actionsLeft_lt h
  · exact act_actionsLeft_lt (s := { s with resetInput := some ⟨n, left⟩ }) h

/-! ### Every command ends -/

theorem runTicks_inProgress {n : Nat} (h : s.actionsLeft ≤ n) : (runTicks n s).inProgress = none := by
  induction n generalizing s with
  | zero =>
    rcases hp : s.inProgress with _ | p
    · exact hp
    · rw [actionsLeft_busy hp] at h; omega
  | succ n ih =>
    rcases hp : s.inProgress with _ | p
    · rwa [runTicks_idle _ hp]
    · have := tick_actionsLeft_lt hp
      rw [runTicks_busy n hp]
      exact ih (by omega)

@[simp] theorem runToEnd_inProgress (s : State) : (runToEnd s).inProgress = none := by
  unfold runToEnd
  split
  · assumption
  · next p hp => exact runTicks_inProgress (actionsLeft_le_actions hp)

@[simp] theorem runCommand_inProgress (pending : List Event) (loop : Loop) (s : State) :
    (runCommand pending loop s).inProgress = none := runToEnd_inProgress _

/-- Every command has a next state, in which the block is idle (42_stepping R100, R107, 60_exceptions R139). -/
theorem exec_ends (i : Instr) (s : State) : ∃ t, exec i s = .next t ∧ t.inProgress = none := by
  cases i with
  | getStatus => exact ⟨_, rfl, respond_inProgress _ _⟩
  | setSpeed rpm => exact ⟨_, rfl, by split <;> simp⟩
  | step count rev => exact ⟨_, rfl, runCommand_inProgress _ _ _⟩
  | doubleStep count rev => exact ⟨_, rfl, runCommand_inProgress _ _ _⟩
  | interleavedStep count rev => exact ⟨_, rfl, runCommand_inProgress _ _ _⟩
  | microStep count rev => exact ⟨_, rfl, runCommand_inProgress _ _ _⟩
  | alignStep rev => exact ⟨_, rfl, runCommand_inProgress _ _ _⟩
  | setPin pin value => exact ⟨_, rfl, by split <;> simp⟩

theorem orReset_wait_inProgress (h : s.inProgress = none) : (orReset wait s).inProgress = none := by
  rcases orReset_cases wait s with ⟨left, -, hr⟩ | hr <;> simp [hr, wait, h]

/-- Settles O11, by cases on what a step can do: only a command in progress and a decoded one run actions, and
`actionsLeft`, which every action lowers, is within the bound they run under. -/
theorem stepLeavesBlockIdle : Obligations.StepLeavesBlockIdle := by
  intro s t h
  rcases step_cases h with ⟨left, -, rfl⟩ | ⟨-, rfl⟩ | ⟨hidle, -, rfl⟩ | ⟨w, rest, i, -, -, -, hexec⟩ |
    ⟨w, rest, r, -, -, -, rfl⟩
  · exact resetNow_inProgress left s
  · exact runToEnd_inProgress s
  · exact orReset_wait_inProgress hidle
  · obtain ⟨u, hu, huidle⟩ := exec_ends i ({ s with rx := rest } : State).countAction
    cases hu.symm.trans hexec
    exact huidle
  · exact raise_inProgress _ _

end Sys2Proof.Machine
end

section
/-! PROOFS. The family 10_state, first part: the machine's invariant (10_state R24, R25, 20_memory R42, 60_exceptions
R130). -/

namespace Sys2Proof.Machine

variable {s t : State}

/-! ### What a command does at its entry -/

/-- A stepping command runs a loop of physical steps, from the state it finds or after forcing both drive strengths; the
dwell is positive where SPS is (42_stepping R100 to R105). -/
theorem exec_stepping {i : Instr} (h : isStepping i = true) (s : State) :
    ∃ loop u, exec i s = .next (runCommand [] loop u) ∧ (u = s ∨ u = fullStrength s) ∧
      (0 < s.sps → loopLegal loop) := by
  cases i with
  | getStatus => cases h
  | setSpeed rpm => cases h
  | setPin pin value => cases h
  | step count rev => exact ⟨_, _, rfl, .inr rfl, id⟩
  | doubleStep count rev => exact ⟨_, _, rfl, .inr rfl, id⟩
  | interleavedStep count rev => exact ⟨_, _, rfl, .inr rfl, half_pos⟩
  | microStep count rev => exact ⟨_, _, rfl, .inl rfl, fun hs => div_pos hs (by norm_num)⟩
  | alignStep rev => exact ⟨_, _, rfl, .inl rfl, fun hs => div_pos hs (by norm_num)⟩

/-- Everything SET_SPEED can do (40_speed R75). -/
theorem exec_setSpeed_cases {rpm : Nat} (h : exec (.setSpeed rpm) s = .next t) :
    t = raise .divisionFault s ∨ (rpm ≠ 0 ∧ t = respond 0 (s.setPace (paceOfRpm rpm))) := by
  cases h
  by_cases hr : rpm = 0
  · exact .inl (if_pos hr)
  · exact .inr ⟨hr, if_neg hr⟩

/-- Everything SET_PIN can do (43_pin R120). -/
theorem exec_setPin_cases {pin value : Nat} (h : exec (.setPin pin value) s = .next t) :
    ((pin > 15 ∨ value > 1) ∧ t = raise .invalidArgument s) ∨
    (¬ (pin > 15 ∨ value > 1) ∧ t = runCommand [pinWrite (pinChan pin) (value = 1)] .finished s) := by
  cases h
  by_cases hb : pin > 15 ∨ value > 1
  · exact .inl ⟨hb, if_pos (decide_eq_true hb)⟩
  · exact .inr ⟨hb, if_neg (by simpa [badPinArgument] using hb)⟩

/-- Everything a command can do: it answers at once, raises an error of its own before any effect, makes one pin write,
or runs a loop of physical steps. -/
theorem exec_cases {i : Instr} (h : exec i s = .next t) :
    t = respond 0 s ∨
    (∃ rpm, rpm ≠ 0 ∧ t = respond 0 (s.setPace (paceOfRpm rpm))) ∨
    (∃ e, e ≠ .invalidConfiguration ∧ t = raise e s) ∨
    (∃ c v, t = runCommand [pinWrite c v] .finished s) ∨
    (∃ loop u, t = runCommand [] loop u ∧ (u = s ∨ u = fullStrength s) ∧ (0 < s.sps → loopLegal loop)) := by
  by_cases hi : isStepping i = true
  · obtain ⟨loop, u, hrun, hu, hloop⟩ := exec_stepping hi s
    cases hrun.symm.trans h
    exact .inr (.inr (.inr (.inr ⟨loop, u, rfl, hu, hloop⟩)))
  · cases i with
    | getStatus => cases h; exact .inl rfl
    | setSpeed rpm =>
      rcases exec_setSpeed_cases h with rfl | ⟨hrpm, rfl⟩
      · exact .inr (.inr (.inl ⟨.divisionFault, by decide, rfl⟩))
      · exact .inr (.inl ⟨rpm, hrpm, rfl⟩)
    | setPin pin value =>
      rcases exec_setPin_cases h with ⟨-, rfl⟩ | ⟨-, rfl⟩
      · exact .inr (.inr (.inl ⟨.invalidArgument, by decide, rfl⟩))
      · exact .inr (.inr (.inr (.inl ⟨_, _, rfl⟩)))
    | step count rev => exact absurd rfl hi
    | doubleStep count rev => exact absurd rfl hi
    | interleavedStep count rev => exact absurd rfl hi
    | microStep count rev => exact absurd rfl hi
    | alignStep rev => exact absurd rfl hi

/-! ### What an action keeps -/

/-- What the reset, the counting of an action and the action itself keep, `orReset` keeps. -/
theorem orReset_keeps {P : State → Prop} {a : State → State} (hreset : ∀ left, P s → P (resetNow left s))
    (hcount : P s → P s.countAction) (ha : ∀ u, P u → P (a u)) (h : P s) : P (orReset a s) := by
  rcases orReset_cases a s with ⟨left, -, hr⟩ | hr <;> rw [hr]
  · exact hreset left h
  · exact ha _ (hcount h)

/-! ### Legal windows, events and responses -/

theorem dutyWindow_legal (p : Byte) : windowLegal (dutyWindow p) := .inl ⟨rfl, p, rfl⟩

theorem pinWindow_legal (v : Bool) : windowLegal (pinWindow v) := by
  cases v
  · exact .inr (.inl ⟨rfl, rfl⟩)
  · exact .inr (.inr ⟨rfl, rfl⟩)

theorem stepEvents_legal {d : Rat} (hd : 0 < d) (mode : Mode) (s : State) :
    ∀ e ∈ stepEvents mode d s, eventLegal e := by
  simp [stepEvents, energize, duty, pinWrite, eventLegal, dutyWindow_legal, pinWindow_legal, hd]

/-- Everything a loop that asks for a next step can be (42_stepping R100, R105). -/
theorem loop_next_cases {phase : BitVec 5} {loop loop' : Loop} {mode : Mode} {rev : Bool} {d : Rat}
    (h : loop.next phase = some (mode, rev, d, loop')) :
    (∃ n, loop = .counted mode rev d (n + 1) ∧ loop' = .counted mode rev d n) ∨
    (mode = .micro ∧ loop = .untilAligned rev d ∧ loop' = .untilAligned rev d) := by
  cases loop with
  | finished => cases h
  | counted m r u n =>
    cases n with
    | zero => cases h
    | succ n => cases h; exact .inl ⟨n, rfl, rfl⟩
  | untilAligned r u =>
    by_cases ha : phase.toNat = 0 ∨ phase.toNat = 8
    · rw [loop_next_aligned r u ha] at h; cases h
    · rw [loop_next_notAligned r u ha] at h; cases h; exact .inr ⟨rfl, rfl, rfl⟩

/-- The next step that a legal loop asks for has a positive dwell, and leaves a legal loop. -/
theorem loopLegal_next {phase : BitVec 5} {loop loop' : Loop} {mode : Mode} {rev : Bool} {d : Rat}
    (h : loopLegal loop) (hn : loop.next phase = some (mode, rev, d, loop')) : 0 < d ∧ loopLegal loop' := by
  rcases loop_next_cases hn with ⟨n, rfl, rfl⟩ | ⟨rfl, rfl, rfl⟩
  · exact ⟨h, h⟩
  · exact ⟨h, h⟩

/-- The status field of a response word (30_encoding R67). -/
theorem responseWord_statusField (c : BitVec 4) (s : State) : (s.responseWord c).extractLsb 3 0 = c := by
  apply BitVec.eq_of_toNat_eq
  have := c.isLt
  rw [extractLsb_toNat, State.responseWord, append_toNat]
  omega

/-- The FAULT field of a response word (30_encoding R67). -/
theorem responseWord_faultField (c : BitVec 4) (s : State) : (s.responseWord c).extractLsb 7 4 = s.fault := by
  apply BitVec.eq_of_toNat_eq
  have := c.isLt
  have := s.fault.isLt
  rw [extractLsb_toNat, State.responseWord, append_toNat, append_toNat]
  omega

theorem response_legal {c : BitVec 4} (hf : codeLegal s.fault) (hc : codeLegal c) :
    outputLegal (.response (s.responseWord c)) := by
  rw [outputLegal, responseWord_faultField, responseWord_statusField]
  exact ⟨hf, hc⟩

/-- Every error that the block raises while it runs has a legal code (60_exceptions R130, R131). -/
theorem code_legal {e : ErrorKind} (h : e ≠ .invalidConfiguration) : codeLegal e.code := by
  unfold codeLegal
  cases e with
  | invalidConfiguration => exact absurd rfl h
  | invalidArgument => decide
  | divisionFault => decide
  | busError => decide
  | illegalCommand => decide

theorem sps0_pos : 0 < Config.sps0 := by
  have := Config.sps0Num.pos
  have := Config.sps0Den.pos
  unfold Config.sps0
  positivity

theorem paceOfRpm_pos {rpm : Nat} (h : rpm ≠ 0) : 0 < paceOfRpm rpm := by
  have := Config.stepsPerRev.pos
  have := Nat.pos_of_ne_zero h
  unfold paceOfRpm
  positivity

/-! ### Each operation keeps the invariant -/

theorem resetNow_machineInv (left : Window) (s : State) : MachineInv (resetNow left s) where
  spsPositive := sps0_pos
  faultLegal := .inl rfl
  outLegal := by rintro _ ⟨⟩
  progressLegal := by rintro _ ⟨⟩

namespace MachineInv

theorem setProgress {p : InProgress} (h : MachineInv s) (hev : ∀ e ∈ p.pending, eventLegal e)
    (hloop : loopLegal p.loop) : MachineInv (s.setProgress (some p)) where
  spsPositive := h.spsPositive
  faultLegal := h.faultLegal
  outLegal := h.outLegal
  progressLegal := by rintro _ ⟨⟩; exact ⟨hev, hloop⟩

theorem emit {e : Event} (h : MachineInv s) (he : eventLegal e) : MachineInv (s.emit e) where
  spsPositive := h.spsPositive
  faultLegal := h.faultLegal
  outLegal := by
    intro o ho
    rcases List.mem_append.mp ho with ho | ho
    · exact h.outLegal o ho
    · rw [List.mem_singleton.mp ho]; exact he
  progressLegal := h.progressLegal

/-- The invariant does not speak of the channels, nor of the number of writes. -/
theorem countDraw_setChan (h : MachineInv s) (c : Chan) (w : Window) : MachineInv (s.countDraw.setChan c w) :=
  ⟨h.spsPositive, h.faultLegal, h.outLegal, h.progressLegal⟩

theorem land {e : Event} (h : MachineInv s) (he : eventLegal e) : MachineInv (land s e) := by
  cases e with
  | dwell d => exact h.emit he
  | write c w => exact (h.emit he).countDraw_setChan c w

theorem respond {c : BitVec 4} (h : MachineInv s) (hc : codeLegal c) : MachineInv (respond c s) where
  spsPositive := h.spsPositive
  faultLegal := h.faultLegal
  outLegal := by
    intro o ho
    rcases List.mem_append.mp ho with ho | ho
    · exact h.outLegal o ho
    · rw [List.mem_singleton.mp ho]; exact response_legal h.faultLegal hc
  progressLegal := by rintro _ ⟨⟩

theorem recordFault {c : BitVec 4} (h : MachineInv s) (hc : codeLegal c) : MachineInv (s.recordFault c) where
  spsPositive := h.spsPositive
  faultLegal := by
    rw [recordFault_fault]
    split
    · exact hc
    · exact h.faultLegal
  outLegal := h.outLegal
  progressLegal := h.progressLegal

theorem raise {e : ErrorKind} (h : MachineInv s) (he : e ≠ .invalidConfiguration) : MachineInv (raise e s) :=
  (h.recordFault (code_legal he)).respond (code_legal he)

theorem setPace {d : Rat} (h : MachineInv s) (hd : 0 < d) : MachineInv (s.setPace d) :=
  ⟨hd, h.faultLegal, h.outLegal, h.progressLegal⟩

theorem fullStrength (h : MachineInv s) : MachineInv (fullStrength s) :=
  ⟨h.spsPositive, h.faultLegal, h.outLegal, h.progressLegal⟩

theorem stepRegisters (h : MachineInv s) (mode : Mode) (rev : Bool) : MachineInv (stepRegisters mode rev s) := by
  cases mode <;> exact ⟨h.spsPositive, h.faultLegal, h.outLegal, h.progressLegal⟩

theorem beginStep {mode : Mode} {rev : Bool} {d : Rat} {loop : Loop} (h : MachineInv s) (hd : 0 < d)
    (hloop : loopLegal loop) : MachineInv (beginStep mode rev d loop s) :=
  (h.stepRegisters mode rev).setProgress (stepEvents_legal hd mode _) hloop

theorem countAction (h : MachineInv s) : MachineInv s.countAction :=
  ⟨by simpa using h.spsPositive, by simpa using h.faultLegal, by simpa using h.outLegal,
    by simpa using h.progressLegal⟩

theorem takeBytes (h : MachineInv s) (rest : List Byte) : MachineInv { s with rx := rest } :=
  ⟨h.spsPositive, h.faultLegal, h.outLegal, h.progressLegal⟩

/-! ### Runs and commands keep the invariant -/

theorem act (h : MachineInv s) : MachineInv (act s) := by
  rcases hp : s.inProgress with _ | p
  · rwa [act_idle hp]
  · obtain ⟨hev, hloop⟩ := h.progressLegal p hp
    rcases act_cases hp with ⟨e, es, hpend, ha⟩ | ⟨c, w, left, es, hpend, ha⟩ | ⟨mode, rev, d, loop', -, hn, ha⟩ |
      ⟨-, -, ha⟩ <;> rw [ha]
    · rw [hpend, List.forall_mem_cons] at hev
      exact (h.setProgress (p := ⟨es, p.loop⟩) hev.2 hloop).land hev.1
    · rw [hpend, List.forall_mem_cons] at hev
      have hemit := (h.setProgress (p := ⟨es, p.loop⟩) hev.2 hloop).emit hev.1
      exact (hemit.countDraw_setChan c left).raise (by decide)
    · obtain ⟨hd, hloop'⟩ := loopLegal_next hloop hn
      exact h.beginStep hd hloop'
    · exact h.respond (.inl rfl)

theorem orReset {a : State → State} (ha : ∀ u, MachineInv u → MachineInv (a u)) (h : MachineInv s) :
    MachineInv (orReset a s) :=
  orReset_keeps (fun left _ => resetNow_machineInv left s) countAction ha h

theorem runToEnd (h : MachineInv s) : MachineInv (runToEnd s) :=
  runToEnd_induct (fun _ _ hu => hu.orReset fun _ => act) s h

theorem runCommand {pending : List Event} {loop : Loop} (h : MachineInv s) (hev : ∀ e ∈ pending, eventLegal e)
    (hloop : loopLegal loop) : MachineInv (runCommand pending loop s) :=
  (h.setProgress (p := ⟨pending, loop⟩) hev hloop).runToEnd

theorem exec {i : Instr} (h : MachineInv s) (hexec : exec i s = .next t) : MachineInv t := by
  rcases exec_cases hexec with rfl | ⟨rpm, hrpm, rfl⟩ | ⟨e, he, rfl⟩ | ⟨c, v, rfl⟩ | ⟨loop, u, rfl, hu, hloop⟩
  · exact h.respond (.inl rfl)
  · exact (h.setPace (paceOfRpm_pos hrpm)).respond (.inl rfl)
  · exact h.raise he
  · exact h.runCommand (by simp [pinWrite, eventLegal, pinWindow_legal]) trivial
  · have hu : MachineInv u := by rcases hu with rfl | rfl; exacts [h, h.fullStrength]
    exact hu.runCommand (by simp) (hloop h.spsPositive)

end MachineInv

/-- Settles O47, by cases on what a step can do: a run keeps the invariant because each of its actions does, and a
command because it starts its run with legal events and a positive dwell. -/
theorem stepKeepsInvariant : Obligations.StepKeepsInvariant := by
  intro s t h hstep
  rcases step_cases hstep with ⟨left, -, rfl⟩ | ⟨-, rfl⟩ | ⟨-, -, rfl⟩ | ⟨w, rest, i, -, -, -, hexec⟩ |
    ⟨w, rest, r, -, -, -, rfl⟩
  · exact resetNow_machineInv left s
  · exact h.runToEnd
  · exact h.orReset fun _ hu => hu
  · exact (h.takeBytes rest).countAction.exec hexec
  · exact (h.takeBytes rest).countAction.raise (by decide)

end Sys2Proof.Machine
end

section
/-! PROOFS. The family 10_state, second part: the frames of the commands that write channels (10_state R34, 20_memory
R47), and what they keep of the drive strengths and of FAULT (10_state R22, R23, R25). -/

namespace Sys2Proof.Machine

variable {s t : State}

/-! ### Which channels a run can change -/

/-- The command in progress has only channels in `C` still to write. -/
structure WritesWithin (C : Chan → Prop) (p : InProgress) : Prop where
  pending : ∀ c w, Event.write c w ∈ p.pending → C c
  loop    : p.loop = .finished ∨ ∀ c ∈ motorChans, C c

/-- From `s` to `t` only channels in `C` have changed, and only those are still to be written. -/
structure ChanFrame (C : Chan → Prop) (s t : State) : Prop where
  chan     : ∀ c, ¬ C c → t.chan c = s.chan c
  progress : ∀ p, t.inProgress = some p → WritesWithin C p

theorem stepEvents_write_mem {mode : Mode} {d : Rat} {c : Chan} {w : Window}
    (h : Event.write c w ∈ stepEvents mode d s) : c ∈ motorChans := by
  simp only [stepEvents, energize, duty, pinWrite, List.mem_append, List.mem_cons, List.not_mem_nil, or_false,
    Event.write.injEq, reduceCtorEq] at h
  rcases h with h | h | h | h | h | h <;> simp [motorChans, h.1]

theorem land_chan_ne {c : Chan} {e : Event} (h : ∀ w, e ≠ .write c w) (s : State) : (land s e).chan c = s.chan c := by
  cases e with
  | dwell d => rfl
  | write d w => exact setChan_chan_ne _ w fun hcd => h w (by rw [hcd])

theorem writeInFlight_eq_some {c : Chan} (h : s.writeInFlight = some c) :
    ∃ w es loop, s.inProgress = some ⟨.write c w :: es, loop⟩ := by
  unfold State.writeInFlight at h
  split at h
  · next d w es loop hp => cases h; exact ⟨w, es, loop, hp⟩
  · cases h

/-- A reset that cuts off no write resets an idle block (70_reset_and_hazards R151). -/
theorem resetNow_noWrite (left : Window) (h : s.writeInFlight = none) :
    resetNow left s = resetNow left (s.setProgress none) := by
  rw [resetNow, h]
  rfl

/-- A reset that cuts off a write leaves `left` in its channel (70_reset_and_hazards R152). -/
theorem resetNow_cutWrite {c : Chan} (left : Window) (h : s.writeInFlight = some c) :
    resetNow left s = resetNow left ((s.setChan c left).setProgress none) := by
  rw [resetNow, h]
  rfl

/-- A reset changes no channel but that of the write it cuts off (70_reset_and_hazards R152). -/
theorem resetNow_chan_ne {c : Chan} (left : Window) (h : s.writeInFlight ≠ some c) :
    (resetNow left s).chan c = s.chan c := by
  rcases hd : s.writeInFlight with _ | d
  · rw [resetNow_noWrite left hd]; rfl
  · rw [resetNow_cutWrite left hd]
    exact setChan_chan_ne s left fun hcd => h (hcd ▸ hd)

/-- A loop that asks for a physical step is not over. -/
theorem loop_ne_finished {phase : BitVec 5} {loop loop' : Loop} {mode : Mode} {rev : Bool} {d : Rat}
    (hn : loop.next phase = some (mode, rev, d, loop')) : loop ≠ .finished := by
  rintro rfl; cases hn

namespace ChanFrame

variable {C : Chan → Prop}

theorem resetNow (h : ChanFrame C s t) (left : Window) : ChanFrame C s (resetNow left t) where
  chan c hc := by
    have hcut : t.writeInFlight ≠ some c := fun hw => by
      obtain ⟨w, es, loop, hp⟩ := writeInFlight_eq_some hw
      exact hc ((h.progress _ hp).pending c w List.mem_cons_self)
    exact (resetNow_chan_ne left hcut).trans (h.chan c hc)
  progress := by rintro _ ⟨⟩

theorem countAction (h : ChanFrame C s t) : ChanFrame C s t.countAction :=
  ⟨by simpa using h.chan, by simpa using h.progress⟩

theorem act (h : ChanFrame C s t) : ChanFrame C s (act t) := by
  rcases hp : t.inProgress with _ | p
  · rwa [act_idle hp]
  · obtain ⟨hpending, hloop⟩ := h.progress p hp
    rcases act_cases hp with ⟨e, es, hpend, ha⟩ | ⟨d, w, left, es, hpend, ha⟩ | ⟨mode, rev, d, loop', -, hn, ha⟩ |
      ⟨-, -, ha⟩ <;> rw [ha]
    · rw [hpend] at hpending
      refine ⟨fun c hc => ?_, fun q hq => ?_⟩
      · rw [land_chan_ne fun w he => hc (hpending c w (by simp [he]))]
        exact h.chan c hc
      · rw [land_inProgress] at hq
        cases hq
        exact ⟨fun c w hw => hpending c w (List.mem_cons_of_mem _ hw), hloop⟩
    · rw [hpend] at hpending
      refine ⟨fun c hc => ?_, by rintro _ ⟨⟩⟩
      have hcd : c ≠ d := by rintro rfl; exact hc (hpending c w List.mem_cons_self)
      exact (setChan_chan_ne _ left hcd).trans (h.chan c hc)
    · have hmotor := hloop.resolve_left (loop_ne_finished hn)
      refine ⟨fun c hc => (stepRegisters_chan mode rev t c).trans (h.chan c hc), ?_⟩
      rintro _ ⟨⟩
      exact ⟨fun c _ hw => hmotor c (stepEvents_write_mem hw), .inr hmotor⟩
    · exact ⟨h.chan, by rintro _ ⟨⟩⟩

end ChanFrame

/-- A run writes no channel but those of its events, and the motor channels where it has a loop: whatever the bus
answers, and whenever a reset comes. -/
theorem runCommand_chan {C : Chan → Prop} {pending : List Event} {loop : Loop}
    (h : WritesWithin C ⟨pending, loop⟩) (s : State) {c : Chan} (hc : ¬ C c) :
    (runCommand pending loop s).chan c = s.chan c :=
  have start : ChanFrame C s (s.setProgress (some ⟨pending, loop⟩)) := ⟨fun _ _ => rfl, by rintro _ ⟨⟩; exact h⟩
  (runToEnd_induct (fun _ _ hu => orReset_keeps (fun left h => h.resetNow left) (·.countAction) (fun _ => .act) hu)
    _ start).chan c hc

/-! ### Which registers and inputs a run without a reset can change -/

/-- The loop has no physical step that sets the drive strengths. -/
def Loop.keepsStrengths : Loop → Prop
  | .finished => True
  | .counted mode _ _ _ => mode ≠ .micro
  | .untilAligned _ _ => False

theorem Loop.keepsStrengths_next {phase : BitVec 5} {loop loop' : Loop} {mode : Mode} {rev : Bool} {d : Rat}
    (h : loop.keepsStrengths) (hn : loop.next phase = some (mode, rev, d, loop')) :
    mode ≠ .micro ∧ loop'.keepsStrengths := by
  rcases loop_next_cases hn with ⟨n, rfl, rfl⟩ | ⟨rfl, rfl, rfl⟩
  · exact ⟨h, h⟩
  · exact h.elim

theorem stepRegisters_strengths {mode : Mode} (h : mode ≠ .micro) (rev : Bool) (s : State) :
    (stepRegisters mode rev s).pwmA = s.pwmA ∧ (stepRegisters mode rev s).pwmB = s.pwmB := by
  simp [stepRegisters, h]

/-- What a run of `loop` from `s` with no reset coming keeps up to `t`: SPS and the inputs; FAULT but for a first
BusError; the strengths where no step of the loop sets them; PHASE where there is no loop. -/
structure RunFrame (loop : Loop) (s t : State) : Prop where
  inputs    : t.sps = s.sps ∧ t.rx = s.rx ∧ t.busScript = s.busScript ∧ t.otherBusy = s.otherBusy ∧
    t.resetInput = none
  fault     : t.fault = s.fault ∨ (s.fault = 0 ∧ t.fault = 4)
  strengths : loop.keepsStrengths → t.pwmA = s.pwmA ∧ t.pwmB = s.pwmB
  phase     : loop = .finished → t.phase = s.phase
  progress  : ∀ p, t.inProgress = some p →
    (loop.keepsStrengths → p.loop.keepsStrengths) ∧ (loop = .finished → p.loop = .finished)

namespace RunFrame

variable {loop : Loop}

theorem start (hr : s.resetInput = none) (pending : List Event) (loop : Loop) :
    RunFrame loop s (s.setProgress (some ⟨pending, loop⟩)) :=
  ⟨⟨rfl, rfl, rfl, rfl, hr⟩, .inl rfl, fun _ => ⟨rfl, rfl⟩, fun _ => rfl, by rintro _ ⟨⟩; exact ⟨id, id⟩⟩

theorem land (h : RunFrame loop s t) (e : Event) : RunFrame loop s (land t e) := by
  cases e <;> exact ⟨h.inputs, h.fault, h.strengths, h.phase, h.progress⟩

theorem respond (h : RunFrame loop s t) (c : BitVec 4) : RunFrame loop s (respond c t) :=
  ⟨h.inputs, h.fault, h.strengths, h.phase, by rintro _ ⟨⟩⟩

/-- A run takes no error but BusError. -/
theorem busError (h : RunFrame loop s t) : RunFrame loop s (raise .busError t) where
  inputs := h.inputs
  fault := by
    rw [raise_fault]
    split
    · next h0 =>
      rcases h.fault with hf | ⟨h0, -⟩
      · exact .inr ⟨hf ▸ h0, rfl⟩
      · exact .inr ⟨h0, rfl⟩
    · exact h.fault
  strengths := h.strengths
  phase := h.phase
  progress := by rintro _ ⟨⟩

theorem act (h : RunFrame loop s t) : RunFrame loop s (act t) := by
  rcases hp : t.inProgress with _ | p
  · rwa [act_idle hp]
  · obtain ⟨hkeeps, hfinished⟩ := h.progress p hp
    have next (es : List Event) : RunFrame loop s (t.setProgress (some ⟨es, p.loop⟩)) :=
      ⟨h.inputs, h.fault, h.strengths, h.phase, by rintro _ ⟨⟩; exact ⟨hkeeps, hfinished⟩⟩
    rcases act_cases hp with ⟨e, es, -, ha⟩ | ⟨c, w, left, es, -, ha⟩ | ⟨mode, rev, d, loop', -, hn, ha⟩ |
      ⟨-, -, ha⟩ <;> rw [ha]
    · exact (next es).land e
    · have written := next es
      exact busError ⟨written.inputs, written.fault, written.strengths, written.phase, written.progress⟩
    · have hne : loop ≠ .finished := fun hl => loop_ne_finished hn (hfinished hl)
      exact
        { inputs := by simpa [beginStep] using h.inputs
          fault := by simpa [beginStep] using h.fault
          strengths := fun hk => by
            obtain ⟨hA, hB⟩ := stepRegisters_strengths (Loop.keepsStrengths_next (hkeeps hk) hn).1 rev t
            simpa [beginStep, hA, hB] using h.strengths hk
          phase := fun hl => absurd hl hne
          progress := by
            rintro _ ⟨⟩
            exact ⟨fun hk => (Loop.keepsStrengths_next (hkeeps hk) hn).2, fun hl => absurd hl hne⟩ }
    · exact h.respond 0

theorem runToEnd (h : RunFrame loop s t) : RunFrame loop s (runToEnd t) :=
  runToEnd_induct (fun u _ hu => by
    obtain ⟨-, -, -, -, hr⟩ := hu.inputs
    rw [tick_noReset hr]
    exact hu.act) t h

/-- A run keeps a FAULT that holds an error (10_state R25). -/
theorem fault_kept (h : RunFrame loop s t) (hf : s.fault ≠ 0) : t.fault = s.fault :=
  h.fault.resolve_right fun ⟨h0, _⟩ => hf h0

end RunFrame

theorem runCommand_frame (hr : s.resetInput = none) (pending : List Event) (loop : Loop) :
    RunFrame loop s (runCommand pending loop s) := (RunFrame.start hr pending loop).runToEnd

/-! ### The frames of the commands -/

theorem raise_fault_kept (e : ErrorKind) (hf : s.fault ≠ 0) : (raise e s).fault = s.fault := if_neg hf

/-- Settles O40: a stepping command is a run that writes the motor channels only. -/
theorem steppingFrame : Obligations.SteppingFrame := by
  intro i s t hi hexec
  obtain ⟨loop, u, hrun, hu, -⟩ := exec_stepping hi s
  cases hrun.symm.trans hexec
  refine ⟨fun c hc => ?_, fun hr => ?_⟩
  · have within : WritesWithin (· ∈ motorChans) ⟨[], loop⟩ := ⟨by simp, .inr fun _ h => h⟩
    rw [runCommand_chan within u hc]
    rcases hu with rfl | rfl <;> rfl
  · have frame : RunFrame loop u (runCommand [] loop u) :=
      runCommand_frame (by rcases hu with rfl | rfl <;> exact hr) [] loop
    obtain ⟨hsps, hrx, hscript, hbusy, hreset⟩ := frame.inputs
    have hfault := frame.fault
    rcases hu with rfl | rfl <;> exact ⟨hsps, hrx, hscript, hbusy, hreset, hfault⟩

/-- Settles O41: a bad argument changes no channel, and a legal SET_PIN is a run of one write and no loop. -/
theorem setPinFrame : Obligations.SetPinFrame := by
  intro pin value s t hexec
  rcases exec_setPin_cases hexec with ⟨-, rfl⟩ | ⟨hlegal, rfl⟩
  · refine ⟨fun _ _ => rfl, fun _ => ⟨rfl, rfl, rfl, rfl, rfl, ?_⟩⟩
    exact (eq_or_ne s.fault 0).symm.imp_left (raise_fault_kept .invalidArgument)
  · refine ⟨fun c hc => ?_, fun hr => ?_⟩
    · have within (v : Bool) : WritesWithin (· = pinChan pin) ⟨[pinWrite (pinChan pin) v], .finished⟩ :=
        ⟨by simp +contextual [pinWrite], .inl rfl⟩
      refine runCommand_chan (within _) s ?_
      rintro rfl
      simp [pinChan] at hc
      omega
    · have frame := runCommand_frame hr [pinWrite (pinChan pin) (value = 1)] .finished
      obtain ⟨hsps, hrx, -⟩ := frame.inputs
      obtain ⟨hA, hB⟩ := frame.strengths trivial
      exact ⟨frame.phase rfl, hA, hB, hsps, hrx, frame.fault.imp_right And.left⟩

/-- A loop with no microsteps keeps the full strength it starts with. -/
theorem runCommand_fullStrength (hr : s.resetInput = none) {loop : Loop} (h : loop.keepsStrengths) :
    (runCommand [] loop (fullStrength s)).pwmA = 255 ∧ (runCommand [] loop (fullStrength s)).pwmB = 255 :=
  (runCommand_frame (s := fullStrength s) hr [] loop).strengths h

/-- Settles O42: the modes of the three commands are not MICRO. -/
theorem wholeStepCommandsKeepFullStrength : Obligations.WholeStepCommandsKeepFullStrength := by
  intro count rev s t hr hexec
  rcases hexec with hexec | hexec | hexec <;> cases hexec <;>
    exact runCommand_fullStrength hr (by simp [Loop.keepsStrengths])

theorem exec_fault_kept {i : Instr} (hr : s.resetInput = none) (hf : s.fault ≠ 0) (h : exec i s = .next t) :
    t.fault = s.fault := by
  rcases exec_cases h with rfl | ⟨rpm, -, rfl⟩ | ⟨e, -, rfl⟩ | ⟨c, v, rfl⟩ | ⟨loop, u, rfl, hu, -⟩
  · rfl
  · rfl
  · exact raise_fault_kept e hf
  · exact (runCommand_frame hr _ _).fault_kept hf
  · rcases hu with rfl | rfl
    · exact (runCommand_frame hr _ _).fault_kept hf
    · exact (runCommand_frame (s := fullStrength s) hr _ _).fault_kept hf

/-- Settles O43, by cases on what a step can do with no reset coming. -/
theorem faultIsSticky : Obligations.FaultIsSticky := by
  intro s t hr hstep hf
  rcases step_cases hstep with ⟨left, hl, -⟩ | ⟨hbusy, rfl⟩ | ⟨-, -, rfl⟩ | ⟨w, rest, i, -, -, -, hexec⟩ |
    ⟨w, rest, r, -, -, -, rfl⟩
  · cases hr.symm.trans hl
  · obtain ⟨p, hp⟩ := Option.ne_none_iff_exists'.mp hbusy
    have start : RunFrame p.loop s s :=
      ⟨⟨rfl, rfl, rfl, rfl, hr⟩, .inl rfl, fun _ => ⟨rfl, rfl⟩, fun _ => rfl, by simp [hp]⟩
    exact start.runToEnd.fault_kept hf
  · simp [orReset, hr, wait]
  · rw [countAction_noReset { s with rx := rest } hr] at hexec
    exact exec_fault_kept (s := { s with rx := rest }) hr hf hexec
  · rw [countAction_noReset { s with rx := rest } hr]
    exact raise_fault_kept .illegalCommand hf

end Sys2Proof.Machine
end

section
/-! PROOFS. The family 10_state, third part: two runs compared, from states that differ only in CH (10_state R27) and from
states that differ only in SPS (10_state R24). -/

namespace Sys2Proof.Machine

/-! ### A pace forgotten -/

/-- The same event, with the length of a dwell forgotten. -/
def Event.erasePace : Event → Event
  | .write c w => .write c w
  | .dwell _   => .dwell 0

/-- The same output, with the length of a dwell forgotten. -/
def Output.erasePace : Output → Output
  | .event e    => .event e.erasePace
  | .response w => .response w

/-- The same loop, with its dwell forgotten. -/
def Loop.erasePace : Loop → Loop
  | .finished             => .finished
  | .counted mode rev _ n => .counted mode rev 0 n
  | .untilAligned rev _   => .untilAligned rev 0

/-- The same command in progress, with its dwells forgotten. -/
def InProgress.erasePace (p : InProgress) : InProgress := ⟨p.pending.map Event.erasePace, p.loop.erasePace⟩

/-- The same state, with SPS and every dwell forgotten. -/
def State.erasePace (s : State) : State :=
  { s with
    sps := 0
    inProgress := s.inProgress.map InProgress.erasePace
    out := s.out.map Output.erasePace }

/-! ### Two runs side by side -/

/-- A relation between states that the block's operations keep, where a command in progress may take its dwells from
each state's own SPS. Related runs make the same number of actions. -/
structure Simulation (R : State → State → Prop) : Prop where
  resetInput   : ∀ {s s'}, R s s' → s'.resetInput = s.resetInput
  actions      : ∀ {s s'}, R s s' → s'.inProgress.map InProgress.actions = s.inProgress.map InProgress.actions
  resetNow     : ∀ {s s'} left, R s s' → R (resetNow left s) (resetNow left s')
  countAction  : ∀ {s s'}, R s s' → R s.countAction s'.countAction
  act          : ∀ {s s'}, R s s' → R (act s) (act s')
  respond      : ∀ {s s'} c, R s s' → R (respond c s) (respond c s')
  raise        : ∀ {s s'} e, R s s' → R (raise e s) (raise e s')
  setPace      : ∀ {s s'} d, R s s' → R (s.setPace d) (s'.setPace d)
  fullStrength : ∀ {s s'}, R s s' → R (fullStrength s) (fullStrength s')
  setProgress  : ∀ {s s'} (p : Rat → InProgress), (∀ d, (p d).erasePace = (p 0).erasePace) → R s s' →
    R (s.setProgress (some (p s.sps))) (s'.setProgress (some (p s'.sps)))

namespace Simulation

variable {R : State → State → Prop} {s s' : State}

theorem tick (sim : Simulation R) (h : R s s') : R (tick s) (tick s') := by
  have hreset := sim.resetInput h
  rcases tick_cases s with ⟨left, hr, ht⟩ | ⟨hr, ht⟩ | ⟨n, left, hr, ht⟩ <;> rw [hr] at hreset <;> rw [ht]
  · rw [tick_reset hreset]
    exact sim.resetNow left h
  · rw [tick_noReset hreset]
    exact sim.act h
  · rw [tick_countdown hreset, ← countAction_succ s hr, ← countAction_succ s' hreset]
    exact sim.act (sim.countAction h)

theorem runTicks (sim : Simulation R) (n : Nat) (h : R s s') : R (runTicks n s) (runTicks n s') := by
  induction n generalizing s s' with
  | zero => exact h
  | succ n ih =>
    have hactions := sim.actions h
    rcases hp : s.inProgress with _ | p <;> rw [hp] at hactions
    · rwa [runTicks_idle _ hp, runTicks_idle _ (Option.map_eq_none_iff.mp hactions)]
    · obtain ⟨p', hp', -⟩ := Option.map_eq_some_iff.mp hactions
      rw [runTicks_busy n hp, runTicks_busy n hp']
      exact ih (sim.tick h)

theorem runToEnd (sim : Simulation R) (h : R s s') : R (runToEnd s) (runToEnd s') := by
  have hactions := sim.actions h
  rcases hp : s.inProgress with _ | p <;> rw [hp] at hactions
  · have hp' := Option.map_eq_none_iff.mp hactions
    simpa only [Machine.runToEnd, hp, hp'] using h
  · obtain ⟨p', hp', hfuel⟩ := Option.map_eq_some_iff.mp hactions
    simpa only [Machine.runToEnd, hp, hp', hfuel] using sim.runTicks p.actions h

/-- Two related states run the same command, each with the dwells of its own SPS. -/
theorem runCommand (sim : Simulation R) (p : Rat → InProgress) (hp : ∀ d, (p d).erasePace = (p 0).erasePace)
    (h : R s s') :
    R (runCommand (p s.sps).pending (p s.sps).loop s) (runCommand (p s'.sps).pending (p s'.sps).loop s') :=
  sim.runToEnd (sim.setProgress p hp h)

/-- Two related states have related next states under every command. -/
theorem exec (sim : Simulation R) (i : Instr) (h : R s s') :
    ∃ t t', exec i s = .next t ∧ exec i s' = .next t' ∧ R t t' := by
  cases i with
  | getStatus => exact ⟨_, _, rfl, rfl, sim.respond 0 h⟩
  | setSpeed rpm =>
    refine ⟨_, _, rfl, rfl, ?_⟩
    split
    · exact sim.raise _ h
    · exact sim.respond 0 (sim.setPace _ h)
  | step count rev =>
    exact ⟨_, _, rfl, rfl, sim.runCommand (fun d => ⟨[], .counted .whole rev d (iterations count)⟩)
      (fun _ => rfl) (sim.fullStrength h)⟩
  | doubleStep count rev =>
    exact ⟨_, _, rfl, rfl, sim.runCommand (fun d => ⟨[], .counted .double rev d (iterations count)⟩)
      (fun _ => rfl) (sim.fullStrength h)⟩
  | interleavedStep count rev =>
    exact ⟨_, _, rfl, rfl, sim.runCommand (fun d => ⟨[], .counted .interleave rev (d / 2) (iterations count)⟩)
      (fun _ => rfl) (sim.fullStrength h)⟩
  | microStep count rev =>
    exact ⟨_, _, rfl, rfl, sim.runCommand
      (fun d => ⟨[], .counted .micro rev (d / (Config.M : Rat)) (microIterations count)⟩) (fun _ => rfl) h⟩
  | alignStep rev =>
    exact ⟨_, _, rfl, rfl, sim.runCommand (fun d => ⟨[], .untilAligned rev (d / (Config.M : Rat))⟩)
      (fun _ => rfl) h⟩
  | setPin pin value =>
    refine ⟨_, _, rfl, rfl, ?_⟩
    split
    · exact sim.raise _ h
    · exact sim.runCommand (fun _ => ⟨[pinWrite (pinChan pin) (value = 1)], .finished⟩) (fun _ => rfl) h

end Simulation

/-! ### Runs that differ only in CH -/

/-- `s'` differs from `s` only in channels, and in none of `D`. -/
def DiffersInCh (D : Chan → Prop) (s s' : State) : Prop :=
  (∃ ch, s' = { s with ch := ch }) ∧ ∀ c, D c → s'.chan c = s.chan c

namespace DiffersInCh

variable {D : Chan → Prop} {s s' : State}

/-- The same window written to a channel of both. -/
theorem setChan (h : DiffersInCh D s s') (c : Chan) (w : Window) :
    DiffersInCh D (s.setChan c w) (s'.setChan c w) := by
  obtain ⟨⟨ch, rfl⟩, hD⟩ := h
  refine ⟨⟨ch.set c w, rfl⟩, fun d hd => ?_⟩
  rw [setChan_chan, setChan_chan, hD d hd]

/-- An operation that neither reads nor writes a channel. -/
theorem of_commutes {f : State → State} (hf : ∀ u ch, f { u with ch := ch } = { f u with ch := ch })
    (hch : ∀ u, (f u).ch = u.ch) (h : DiffersInCh D s s') : DiffersInCh D (f s) (f s') := by
  obtain ⟨⟨ch, rfl⟩, hD⟩ := h
  refine ⟨⟨ch, hf s ch⟩, fun d hd => ?_⟩
  have := hD d hd
  simp only [State.chan, hch] at this ⊢
  exact this

theorem resetNow (h : DiffersInCh D s s') (left : Window) : DiffersInCh D (resetNow left s) (resetNow left s') := by
  have idle {u u' : State} (hu : DiffersInCh D u u') :
      DiffersInCh D (Machine.resetNow left (u.setProgress none)) (Machine.resetNow left (u'.setProgress none)) :=
    hu.of_commutes (f := fun v => Machine.resetNow left (v.setProgress none)) (fun _ _ => rfl) fun _ => rfl
  have hwrite : s'.writeInFlight = s.writeInFlight := by obtain ⟨⟨ch, rfl⟩, -⟩ := h; rfl
  rcases hw : s.writeInFlight with _ | c <;> rw [hw] at hwrite
  · rw [resetNow_noWrite left hw, resetNow_noWrite left hwrite]
    exact idle h
  · rw [resetNow_cutWrite left hw, resetNow_cutWrite left hwrite]
    exact idle (h.setChan c left)

theorem perform (h : DiffersInCh D s s') (e : Event) : DiffersInCh D (perform e s) (perform e s') := by
  cases e with
  | dwell d => exact h.of_commutes (f := State.emit (.dwell d)) (fun _ _ => rfl) fun _ => rfl
  | write c w =>
    have hdrawn := h.of_commutes (f := fun u => (u.emit (.write c w)).countDraw) (fun _ _ => rfl) fun _ => rfl
    have hanswer : s'.answerAt s'.busDraws = s.answerAt s.busDraws := by obtain ⟨⟨ch, rfl⟩, -⟩ := h; rfl
    cases ha : s.answerAt s.busDraws with
    | ok =>
      rw [Machine.perform, Machine.perform, chanWrite_ok c w ha, chanWrite_ok c w (hanswer.trans ha)]
      exact hdrawn.setChan c w
    | fail left =>
      rw [Machine.perform, Machine.perform, chanWrite_fail c w left ha, chanWrite_fail c w left (hanswer.trans ha)]
      exact (hdrawn.setChan c left).of_commutes (fun _ _ => rfl) fun _ => rfl

theorem continueLoop (h : DiffersInCh D s s') (loop : Loop) :
    DiffersInCh D (continueLoop loop s) (continueLoop loop s') := by
  have hphase : s'.phase = s.phase := by obtain ⟨⟨ch, rfl⟩, -⟩ := h; rfl
  rcases hn : loop.next s.phase with _ | ⟨mode, rev, d, loop'⟩
  · rw [continueLoop_end hn, continueLoop_end (hphase ▸ hn)]
    exact h.of_commutes (fun _ _ => rfl) fun _ => rfl
  · rw [continueLoop_begin hn, continueLoop_begin (hphase ▸ hn)]
    exact h.of_commutes (fun _ _ => by cases mode <;> rfl) fun _ => by cases mode <;> rfl

theorem act (h : DiffersInCh D s s') : DiffersInCh D (act s) (act s') := by
  have hp' : s'.inProgress = s.inProgress := by obtain ⟨⟨ch, rfl⟩, -⟩ := h; rfl
  rcases hp : s.inProgress with _ | ⟨_ | ⟨e, es⟩, loop⟩ <;> rw [hp] at hp'
  · rwa [act_idle hp, act_idle hp']
  · rw [act_loop hp, act_loop hp']
    exact h.continueLoop loop
  · rw [act_pending hp, act_pending hp']
    exact (h.of_commutes (fun _ _ => rfl) fun _ => rfl : DiffersInCh D (s.setProgress _) (s'.setProgress _)).perform e

end DiffersInCh

theorem differsInCh_simulation (D : Chan → Prop) : Simulation (DiffersInCh D) where
  resetInput := by rintro s _ ⟨⟨ch, rfl⟩, -⟩; rfl
  actions := by rintro s _ ⟨⟨ch, rfl⟩, -⟩; rfl
  resetNow left h := h.resetNow left
  countAction h := h.of_commutes (fun u _ => by unfold State.countAction; dsimp only; split <;> rfl) countAction_ch
  act h := h.act
  respond _ h := h.of_commutes (fun _ _ => rfl) fun _ => rfl
  raise _ h := h.of_commutes (fun _ _ => rfl) fun _ => rfl
  setPace _ h := h.of_commutes (fun _ _ => rfl) fun _ => rfl
  fullStrength h := h.of_commutes (fun _ _ => rfl) fun _ => rfl
  setProgress p _ h := by
    have hsps : ∀ {s s'}, DiffersInCh D s s' → s'.sps = s.sps := by rintro s _ ⟨⟨ch, rfl⟩, -⟩; rfl
    rw [hsps h]
    exact h.of_commutes (fun _ _ => rfl) fun _ => rfl

/-- Settles O44: a channel is written and never read, so two runs that differ only in CH stay so, and a channel on which
they agree is written alike. -/
theorem channelsAreNeverRead : Obligations.ChannelsAreNeverRead := by
  intro i s t ch hexec
  have start : DiffersInCh (fun c => s.chan c = ({ s with ch := ch } : State).chan c) s { s with ch := ch } :=
    ⟨⟨ch, rfl⟩, fun _ h => h.symm⟩
  obtain ⟨u, t', hu, ht', ⟨ch', rfl⟩, hD⟩ := (differsInCh_simulation _).exec i start
  cases hu.symm.trans hexec
  exact ⟨_, ht', rfl, hD⟩

/-! ### Runs that differ only in SPS -/

variable {s s' : State}

/-- `s'` differs from `s` only in SPS and in the lengths of dwells, those made and those to come. -/
def DiffersInPace (s s' : State) : Prop := s.erasePace = s'.erasePace

/-- An operation that carries over to states with the pace forgotten. -/
theorem DiffersInPace.of_commutes {f : State → State} (hf : ∀ u, f u.erasePace = (f u).erasePace)
    (h : DiffersInPace s s') : DiffersInPace (f s) (f s') := by
  rw [DiffersInPace, ← hf, ← hf, h]

theorem emit_erasePace (e : Event) (s : State) : s.erasePace.emit e.erasePace = (s.emit e).erasePace := by
  simp [State.emit, State.erasePace, Output.erasePace]

theorem setProgress_erasePace (p : Option InProgress) (s : State) :
    s.erasePace.setProgress (p.map InProgress.erasePace) = (s.setProgress p).erasePace := rfl

theorem respond_erasePace (c : BitVec 4) (s : State) : respond c s.erasePace = (respond c s).erasePace := by
  simp [respond, State.erasePace, Output.erasePace, State.responseWord]

theorem raise_erasePace (e : ErrorKind) (s : State) : raise e s.erasePace = (raise e s).erasePace :=
  respond_erasePace e.code (s.recordFault e.code)

theorem countAction_erasePace (s : State) : s.erasePace.countAction = s.countAction.erasePace := by
  unfold State.countAction State.erasePace
  dsimp only
  split <;> rfl

theorem stepRegisters_erasePace (mode : Mode) (rev : Bool) (s : State) :
    stepRegisters mode rev s.erasePace = (stepRegisters mode rev s).erasePace := by cases mode <;> rfl

theorem stepEvents_erasePace (mode : Mode) (d : Rat) (s : State) :
    stepEvents mode 0 s.erasePace = (stepEvents mode d s).map Event.erasePace := rfl

theorem beginStep_erasePace (mode : Mode) (rev : Bool) (d : Rat) (loop : Loop) (s : State) :
    beginStep mode rev 0 loop.erasePace s.erasePace = (beginStep mode rev d loop s).erasePace := by
  rw [beginStep, stepRegisters_erasePace, stepEvents_erasePace mode d]
  rfl

/-- Which step a loop asks for next does not depend on its dwell. -/
theorem Loop.next_erasePace (phase : BitVec 5) (loop : Loop) :
    loop.erasePace.next phase =
      (loop.next phase).map fun (mode, rev, _, loop') => (mode, rev, 0, loop'.erasePace) := by
  cases loop with
  | finished => rfl
  | counted mode rev d n => cases n <;> rfl
  | untilAligned rev d => simp only [Loop.erasePace, Loop.next]; split <;> rfl

theorem perform_erasePace (e : Event) (s : State) :
    perform e.erasePace s.erasePace = (perform e s).erasePace := by
  cases e with
  | dwell d => exact emit_erasePace (.dwell d) s
  | write c w =>
    have hanswer : s.erasePace.answerAt s.erasePace.busDraws = s.answerAt s.busDraws := rfl
    have hemit : s.erasePace.emit (.write c w) = (s.emit (.write c w)).erasePace := emit_erasePace (.write c w) s
    rw [Event.erasePace, perform, perform]
    cases ha : s.answerAt s.busDraws with
    | ok =>
      rw [chanWrite_ok c w ha, chanWrite_ok c w (hanswer.trans ha), land, hemit]
      rfl
    | fail left =>
      rw [chanWrite_fail c w left ha, chanWrite_fail c w left (hanswer.trans ha), ← raise_erasePace, hemit]
      rfl

theorem continueLoop_erasePace (loop : Loop) (s : State) :
    continueLoop loop.erasePace s.erasePace = (continueLoop loop s).erasePace := by
  have hnext := loop.next_erasePace s.phase
  rcases hn : loop.next s.phase with _ | ⟨mode, rev, d, loop'⟩ <;> rw [hn] at hnext
  · rw [continueLoop_end hn, continueLoop_end (s := s.erasePace) hnext]
    exact respond_erasePace 0 s
  · rw [continueLoop_begin hn, continueLoop_begin (s := s.erasePace) hnext]
    exact beginStep_erasePace mode rev d loop' s

theorem act_erasePace (s : State) : act s.erasePace = (act s).erasePace := by
  have hp' : s.erasePace.inProgress = s.inProgress.map InProgress.erasePace := rfl
  rcases hp : s.inProgress with _ | ⟨_ | ⟨e, es⟩, loop⟩ <;> rw [hp] at hp'
  · rw [act_idle hp, act_idle hp']
  · rw [act_loop hp, act_loop hp']
    exact continueLoop_erasePace loop s
  · rw [act_pending hp, act_pending hp']
    exact perform_erasePace e (s.setProgress (some ⟨es, loop⟩))

theorem actions_erasePace (p : InProgress) : p.erasePace.actions = p.actions := by
  obtain ⟨pending, loop⟩ := p
  cases loop <;> simp [InProgress.actions, InProgress.erasePace, Loop.erasePace, Loop.bound]

theorem writeInFlight_erasePace (s : State) : s.erasePace.writeInFlight = s.writeInFlight := by
  rcases hp : s.inProgress with _ | ⟨_ | ⟨c | d, es⟩, loop⟩ <;>
    simp [State.writeInFlight, State.erasePace, hp, InProgress.erasePace, Event.erasePace]

/-- A reset sees neither SPS nor a dwell. -/
theorem resetNow_erasePace (left : Window) (s : State) : resetNow left s.erasePace = resetNow left s := by
  simp only [resetNow, writeInFlight_erasePace]
  rfl

theorem differsInPace_simulation : Simulation DiffersInPace where
  resetInput h := (congrArg State.resetInput h).symm
  actions {s s'} h := by
    have hp := congrArg (fun u : State => u.inProgress.map InProgress.actions) h
    simpa [State.erasePace, Option.map_map, Function.comp_def, actions_erasePace] using hp.symm
  resetNow {s s'} left h := by
    rw [DiffersInPace, ← resetNow_erasePace left s, ← resetNow_erasePace left s', h]
  countAction h := h.of_commutes countAction_erasePace
  act h := h.of_commutes act_erasePace
  respond c h := h.of_commutes (respond_erasePace c)
  raise e h := h.of_commutes (raise_erasePace e)
  setPace d h := h
  fullStrength h := h.of_commutes fun _ => rfl
  setProgress {s s'} p hp h := by
    rw [DiffersInPace, ← setProgress_erasePace, ← setProgress_erasePace, Option.map_some, Option.map_some,
      hp s.sps, hp s'.sps, h]

/-- The writes of a trace. -/
def isWrite : Event → Bool
  | .write _ _ => true
  | .dwell _   => false

theorem responses_erasePace (s : State) : s.erasePace.responses = s.responses := by
  simp only [State.responses, State.erasePace, List.filterMap_map]
  congr 1
  funext o
  cases o <;> rfl

theorem writes_erasePace (s : State) : s.erasePace.trace.filter isWrite = s.trace.filter isWrite := by
  simp only [State.trace, State.erasePace, List.filterMap_map, List.filter_filterMap]
  congr 1
  funext o
  rcases o with (⟨c, w⟩ | d) | w <;> rfl

/-- Settles O45: two runs that differ only in SPS stay the same up to SPS and the lengths of dwells. -/
theorem paceShowsOnlyInDwells : Obligations.PaceShowsOnlyInDwells := by
  intro i s t q hexec
  have start : DiffersInPace s { s with sps := q } := rfl
  obtain ⟨u, t', hu, ht', h⟩ := differsInPace_simulation.exec i start
  cases hu.symm.trans hexec
  have hresponses : t'.responses = t.responses := by
    rw [← responses_erasePace t, ← responses_erasePace t', h]
  have hwrites : t'.trace.filter isWrite = t.trace.filter isWrite := by
    rw [← writes_erasePace t, ← writes_erasePace t', h]
  exact ⟨t', ht', hresponses, hwrites, (congrArg State.ch h).symm, (congrArg State.phase h).symm,
    (congrArg State.pwmA h).symm, (congrArg State.pwmB h).symm, (congrArg State.fault h).symm⟩

end Sys2Proof.Machine
end

section
/-! PROOFS. The family 20_memory: the bytes that carry a word (20_memory R43, R44), the shared bus (R54), and a channel
written twice (R46). -/

namespace Sys2Proof.Machine

variable {s : State}

/-! ### The bytes of a word -/

theorem takeWord_wordBytes (w : Word) (rest : List Byte) : takeWord (wordBytes w ++ rest) = some (w, rest) := by
  have hword : w.extractLsb 31 24 ++ w.extractLsb 23 16 ++ w.extractLsb 15 8 ++ w.extractLsb 7 0 = w := by
    apply BitVec.eq_of_toNat_eq
    have := w.isLt
    simp only [append_toNat, extractLsb_toNat]
    omega
  exact congrArg (fun v => some (v, rest)) hword

/-- Settles O6: both clauses are arithmetic on the number of the word. -/
theorem wordsAreLittleEndian : Obligations.WordsAreLittleEndian := by
  refine fun w rest => ⟨takeWord_wordBytes w rest, ?_⟩
  have htop : w.toNat / 16777216 % 256 = w.toNat / 16777216 := by have := w.isLt; omega
  simp [wordBytes, Nat.shiftRight_eq_div_pow, htop]

/-! ### A whole word waits, or none does -/

/-- A word can be taken exactly where four bytes wait (20_memory R44). -/
theorem takeWord_eq_none_iff {bs : List Byte} : takeWord bs = none ↔ bs.length < 4 := by
  unfold takeWord
  split
  · simp
  · next hshort =>
    refine iff_of_true rfl (Nat.lt_of_not_le fun hlen => ?_)
    match bs, hlen with
    | b0 :: b1 :: b2 :: b3 :: rest, _ => exact hshort b0 b1 b2 b3 rest rfl

theorem fetch_eq_none_iff : s.fetch = none ↔ s.rx.length < 4 := by
  rw [← takeWord_eq_none_iff, State.fetch]
  split <;> simp [*]

theorem hasWork_iff : s.hasWork = true ↔ s.inProgress ≠ none ∨ 4 ≤ s.rx.length := by
  rw [State.hasWork, Bool.or_eq_true, Option.isSome_iff_ne_none, Option.isSome_iff_ne_none, ne_eq s.fetch,
    fetch_eq_none_iff, Nat.not_lt]

/-- An awake idle block with fewer than four bytes waits, whether the bus is free or not. -/
theorem stepAwake_wait (hidle : s.inProgress = none) (hshort : s.rx.length < 4) :
    stepAwake s = .next (orReset wait s) := by
  simp [stepAwake, State.hasWork, hidle, fetch_eq_none_iff.mpr hshort]

/-- Settles O9: the block has no work, and with no reset coming the wait counts nothing. -/
theorem partialWordWaits : Obligations.PartialWordWaits := by
  intro s hreset hidle hshort
  rw [step_noReset hreset, stepAwake_wait hidle hshort]
  simp [orReset, hreset, countAction_noReset s hreset, wait]

/-! ### The shared bus -/

/-- An awake block that does not overlap with the other one goes on: every command has a next state. -/
theorem stepAwake_goes_on (h : ¬ (s.otherBusy = true ∧ s.hasWork = true)) : ∃ t, stepAwake s = .next t := by
  rw [stepAwake, if_neg (by simpa using h)]
  split
  · exact ⟨_, rfl⟩
  · split
    · exact ⟨_, rfl⟩
    · next w s' _ =>
      split
      · next i _ =>
        obtain ⟨t, ht, -⟩ := exec_ends i s'.countAction
        exact ⟨t, ht⟩
      · exact ⟨_, rfl⟩

theorem stepAwake_refused_iff : (∃ r, stepAwake s = .refused r) ↔ s.otherBusy = true ∧ s.hasWork = true := by
  constructor
  · rintro ⟨r, hr⟩
    by_contra h
    obtain ⟨t, ht⟩ := stepAwake_goes_on h
    cases ht.symm.trans hr
  · rintro ⟨hbusy, hwork⟩
    exact ⟨.overlappingCommands, by simp [stepAwake, hbusy, hwork]⟩

theorem step_awake (h : ∀ left, s.resetInput ≠ some ⟨0, left⟩) : step s = stepAwake s := by
  unfold step
  split
  · next left hl => exact absurd hl (h left)
  · rfl

/-- Settles O10: a reset that is due is never refused, and an awake block is refused exactly where it overlaps. -/
theorem overlapIsRefused : Obligations.OverlapIsRefused := by
  intro s
  by_cases hdue : ∃ left, s.resetInput = some ⟨0, left⟩
  · obtain ⟨left, hl⟩ := hdue
    have hstep : step s = .next (resetNow left s) := by simp [step, hl]
    simp [hstep, hl]
  · have hawake : ∀ left, s.resetInput ≠ some ⟨0, left⟩ := not_exists.mp hdue
    rw [step_awake hawake, stepAwake_refused_iff, hasWork_iff, and_iff_left hawake]

/-! ### A pin driven -/

@[simp] theorem respond_trace (code : BitVec 4) (s : State) : (respond code s).trace = s.trace := by
  simp [State.trace]

@[simp] theorem land_trace (s : State) (e : Event) : (land s e).trace = s.trace ++ [e] := by simp [State.trace]

/-- After one write, one answer fewer is left. -/
theorem BusOk_land_write {n : Nat} (h : s.BusOk (n + 1)) (c : Chan) (w : Window) : (land s (.write c w)).BusOk n :=
  fun k hk => by
    have := h (k + 1) (by omega)
    simpa [land, Nat.add_assoc, Nat.add_comm 1 k] using this

/-- SET_PIN with a legal pin and value, whose write succeeds, is that write and the response (43_pin R120). -/
theorem exec_setPin_lands {pin value : Nat} {c : Chan} (hpin : pin ≤ 15) (hvalue : value ≤ 1) (hc : c.val = pin)
    (hquiet : s.Quiet 1) :
    exec (.setPin pin value) s = .next (respond 0 (land s (pinWrite c (value = 1)))) := by
  obtain ⟨hreset, hok⟩ := hquiet
  have hlegal : ¬ badPinArgument pin value = true := by simp [badPinArgument]; omega
  have hchan : pinChan pin = c := Fin.ext (by simp [pinChan]; omega)
  have hrun : runCommand [pinWrite c (value = 1)] .finished s = respond 0 (land s (pinWrite c (value = 1))) :=
    (runTicks_events [pinWrite c (value = 1)] [] .finished 1 s hreset hok).trans
      (runTicks_end 0 _ rfl (by simpa using hreset))
  simp only [exec, execSetPin, if_neg hlegal, hchan, hrun]

/-- Settles O56: each SET_PIN lands its write, and writing the same window again leaves the channels as they are. -/
theorem repeatedSetPinWritesAgain : Obligations.RepeatedSetPinWritesAgain := by
  intro pin value s t u c hpin hvalue hc ⟨hreset, hok⟩ hfirst hsecond
  rw [exec_setPin_lands hpin hvalue hc ⟨hreset, BusOk_mono hok (by omega)⟩] at hfirst
  cases hfirst
  have hquiet : (respond 0 (land s (pinWrite c (value = 1)))).Quiet 1 :=
    ⟨by simpa using hreset, BusOk_land_write hok c _⟩
  rw [exec_setPin_lands hpin hvalue hc hquiet] at hsecond
  cases hsecond
  constructor
  · simp [pinWrite, land]
  · simp [pinWrite]

end Sys2Proof.Machine
end

section
/-! PROOFS. The family 30_encoding, first part: the operand fields as numbers, and the decoder and the encoder inverse to
each other (30_encoding R56 to R66, R70). -/

namespace Sys2Proof

open Machine (mustBeZeroMask)
open Laws.EncodeMatchesTable (tableMask tableMatch)

variable {w : Word}

/-! ### The operand fields -/

theorem countField_eq (w : Word) :
    countField w =
      if w.toNat / 65536 < 32768 then (w.toNat / 65536 : Int) else (w.toNat / 65536 : Int) - 65536 := by
  have hhigh := highField_toNat w
  rw [countField, BitVec.toInt_eq_toNat_cond, hhigh]
  split_ifs <;> omega

theorem rpmField_eq (w : Word) : rpmField w = w.toNat / 65536 := highField_toNat w

theorem pinField_eq (w : Word) : pinField w = w.toNat / 256 % 256 := extractLsb_toNat w 15 8

theorem valueField_eq (w : Word) : valueField w = w.toNat / 65536 % 256 := extractLsb_toNat w 23 16

/-- Settles O4: each field is its arithmetic on the number of the word. -/
theorem operandFieldsOfWord : Obligations.OperandFieldsOfWord := by
  refine fun w => ⟨countField_eq w, rpmField_eq w, pinField_eq w, valueField_eq w, ?_⟩
  rw [revField_eq, decide_eq_true_iff]

theorem revField_toNat (w : Word) : (revField w).toNat = w.toNat / 16 % 2 := by
  rw [revField_eq]
  rcases Nat.mod_two_eq_zero_or_one (w.toNat / 16) with h | h <;> simp [h]

/-! ### The encodings as numbers -/

theorem encode_setSpeed_toNat (rpm : Nat) : (encode (.setSpeed rpm)).toNat = rpm % 65536 * 65536 + 1 := by
  simp only [encode, append_toNat, BitVec.toNat_ofNat]
  omega

theorem encode_alignStep_toNat (rev : Bool) : (encode (.alignStep rev)).toNat = rev.toNat * 16 + 6 := by
  cases rev <;> rfl

theorem encode_setPin_toNat (pin value : Nat) :
    (encode (.setPin pin value)).toNat = value % 256 * 65536 + pin % 256 * 256 + 7 := by
  simp only [encode, append_toNat, BitVec.toNat_ofNat]
  omega

/-! ### The must-be-zero bits -/

/-- The mask of the bits `hi` down to `lo`. -/
def bitsMask (hi lo : Nat) : Word := (BitVec.allOnes (hi - lo + 1)).setWidth 32 <<< lo

theorem getLsbD_bitsMask (hi lo i : Nat) :
    (bitsMask hi lo).getLsbD i = decide (i < 32 ∧ lo ≤ i ∧ i - lo ≤ hi - lo) := by
  rw [bitsMask, BitVec.getLsbD_shiftLeft, BitVec.getLsbD_setWidth, BitVec.getLsbD_allOnes, Bool.eq_iff_iff]
  simp
  omega

/-- A range of a word's bits is zero exactly where the word has no bit in common with the range's mask. -/
theorem and_bitsMask_eq_zero_iff (w : Word) (hi lo : Nat) : w &&& bitsMask hi lo = 0 ↔ w.extractLsb hi lo = 0 := by
  constructor
  · intro h
    apply BitVec.eq_of_getLsbD_eq
    intro i _
    have hbit : (w &&& bitsMask hi lo).getLsbD (lo + i) = false := by rw [h]; exact BitVec.getLsbD_zero
    have hout := w.getLsbD_of_ge (lo + i)
    rw [BitVec.getLsbD_and, getLsbD_bitsMask] at hbit
    rw [BitVec.getLsbD_extractLsb]
    grind
  · intro h
    apply BitVec.eq_of_getLsbD_eq
    intro i _
    have hbit : (w.extractLsb hi lo).getLsbD (i - lo) = false := by rw [h]; exact BitVec.getLsbD_zero
    rw [BitVec.getLsbD_extractLsb] at hbit
    rw [BitVec.getLsbD_and, getLsbD_bitsMask]
    grind

/-- SET_PIN's must-be-zero bits are two ranges (30_encoding R62). -/
theorem and_mustBeZeroMask_setPin_iff (w : Word) :
    w &&& mustBeZeroMask 7 = 0 ↔ w.extractLsb 31 24 = 0 ∧ w.extractLsb 7 4 = 0 := by
  have hmask : mustBeZeroMask 7 = bitsMask 31 24 ||| bitsMask 7 4 := by decide
  rw [← and_bitsMask_eq_zero_iff, ← and_bitsMask_eq_zero_iff, hmask, BitVec.and_or_distrib_left]
  exact BitVec.or_eq_zero_iff

theorem requireZero_mask {mask : Word} {hi lo : Nat} (h : mask = bitsMask hi lo) (w : Word) (i : Instr) :
    requireZero (w.extractLsb hi lo = 0) i = requireZero (w &&& mask = 0) i := by
  simp only [h, and_bitsMask_eq_zero_iff]

/-! ### The decoder as one rule over the defined opcodes -/

/-- The command that a defined opcode and the operand fields of `w` name, whatever the must-be-zero bits of `w` hold
(30_encoding R57 to R61). -/
def commandOf (w : Word) : Fin 8 → Instr
  | 0 => .getStatus
  | 1 => .setSpeed (rpmField w)
  | 2 => .step (countField w) (revField w)
  | 3 => .doubleStep (countField w) (revField w)
  | 4 => .interleavedStep (countField w) (revField w)
  | 5 => .microStep (countField w) (revField w)
  | 6 => .alignStep (revField w)
  | 7 => .setPin (pinField w) (valueField w)

/-- A reserved opcode is no command, whatever the other bits hold (30_encoding R63). -/
theorem decodeWord_reserved (h : 8 ≤ w.toNat % 16) : decodeWord w = .error .reservedOpcode := by
  obtain ⟨k, hop⟩ := Nat.exists_eq_add_of_le' h
  rw [← opField_toNat] at hop
  rw [decodeWord, hop]
  rfl

/-- A defined opcode is its command, where the word has none of the opcode's must-be-zero bits (30_encoding R62). -/
theorem decodeWord_defined {op : Fin 8} (h : w.toNat % 16 = op) :
    decodeWord w = requireZero (w &&& mustBeZeroMask op = 0) (commandOf w op) := by
  rw [← opField_toNat] at h
  rw [decodeWord, h]
  match op with
  | 0 => exact requireZero_mask (by decide) w _
  | 1 => exact requireZero_mask (by decide) w _
  | 2 => exact requireZero_mask (by decide) w _
  | 3 => exact requireZero_mask (by decide) w _
  | 4 => exact requireZero_mask (by decide) w _
  | 5 => exact requireZero_mask (by decide) w _
  | 6 => exact requireZero_mask (by decide) w _
  | 7 =>
    have hzero : decide (w &&& mustBeZeroMask 7 = 0) = (w.extractLsb 31 24 = 0 && w.extractLsb 7 4 = 0) := by
      simp only [and_mustBeZeroMask_setPin_iff, Bool.decide_and]
    exact congrArg (requireZero · _) hzero.symm

/-- Settles O3: an opcode is reserved or defined, and a defined one is decoded by its mask alone. -/
theorem everyWordIsCommandOrIllegal : Obligations.EveryWordIsCommandOrIllegal := by
  intro w
  rcases Nat.lt_or_ge (w.toNat % 16) 8 with hop | hop
  · rw [decodeWord_defined (op := ⟨w.toNat % 16, hop⟩) rfl]
    simp [requireZero_ok, requireZero_error, hop, Nat.not_le.mpr hop]
  · simp [decodeWord_reserved hop, hop, Nat.not_lt.mpr hop]

/-! ### A decoded word is an encoding -/

theorem formatS_fields {op : BitVec 4} (hop : w.toNat % 16 = op.toNat) (hzero : w.extractLsb 15 5 = 0) :
    formatS (countField w) (revField w) op = w := by
  apply BitVec.eq_of_toNat_eq
  rw [extractLsb_eq_zero] at hzero
  rw [formatS_toNat, countField, BitVec.ofInt_toInt, highField_toNat, revField_toNat, ← hop]
  omega

/-- The command that a word with no must-be-zero bit names is encoded as the word. -/
theorem encode_commandOf {op : Fin 8} (hop : w.toNat % 16 = op) (hzero : w &&& mustBeZeroMask op = 0) :
    encode (commandOf w op) = w := by
  have hlt := w.isLt
  have range {hi lo : Nat} (hmask : mustBeZeroMask op = bitsMask hi lo) : w.extractLsb hi lo = 0 :=
    (and_bitsMask_eq_zero_iff w hi lo).mp (hmask ▸ hzero)
  match op with
  | 0 =>
    have hzeros := (extractLsb_eq_zero w 31 4).mp (range (by decide))
    apply BitVec.eq_of_toNat_eq
    change 0 = w.toNat
    change _ = 0 at hop
    omega
  | 1 =>
    have hzeros := (extractLsb_eq_zero w 15 4).mp (range (by decide))
    apply BitVec.eq_of_toNat_eq
    rw [commandOf, encode_setSpeed_toNat, rpmField_eq]
    change _ = 1 at hop
    omega
  | 2 => exact formatS_fields hop (range (by decide))
  | 3 => exact formatS_fields hop (range (by decide))
  | 4 => exact formatS_fields hop (range (by decide))
  | 5 => exact formatS_fields hop (range (by decide))
  | 6 =>
    have hzeros := (extractLsb_eq_zero w 31 5).mp (range (by decide))
    apply BitVec.eq_of_toNat_eq
    rw [commandOf, encode_alignStep_toNat, revField_toNat]
    change _ = 6 at hop
    omega
  | 7 =>
    obtain ⟨htop, hlow⟩ := (and_mustBeZeroMask_setPin_iff w).mp hzero
    rw [extractLsb_eq_zero] at htop hlow
    apply BitVec.eq_of_toNat_eq
    rw [commandOf, encode_setPin_toNat, pinField_eq, valueField_eq]
    change _ = 7 at hop
    omega

theorem countInRange_countField (w : Word) : countInRange (countField w) = true := by
  have := w.isLt
  rw [countField_eq, countInRange, decide_eq_true_iff]
  split_ifs <;> omega

theorem rpmInRange_rpmField (w : Word) : rpmInRange (rpmField w) = true :=
  decide_eq_true (Nat.le_of_lt_succ (highField w).isLt)

/-- A word's fields are in range, whatever the word. -/
theorem wellFormed_commandOf (w : Word) (op : Fin 8) : WellFormed (commandOf w op) = true := by
  match op with
  | 0 => rfl
  | 1 => exact rpmInRange_rpmField w
  | 2 => exact countInRange_countField w
  | 3 => exact countInRange_countField w
  | 4 => exact countInRange_countField w
  | 5 => exact countInRange_countField w
  | 6 => rfl
  | 7 =>
    have hpin := (w.extractLsb 15 8).isLt
    have hvalue := (w.extractLsb 23 16).isLt
    simp [commandOf, WellFormed, byteInRange, pinField, valueField]
    omega

/-- Settles O2: a decoded command is the one that the word's opcode and fields name. -/
theorem encodeOfDecode : Obligations.EncodeOfDecode := by
  intro w i h
  rcases Nat.lt_or_ge (w.toNat % 16) 8 with hop | hop
  · rw [decodeWord_defined (op := ⟨w.toNat % 16, hop⟩) rfl, requireZero_ok] at h
    obtain ⟨hzero, rfl⟩ := h
    exact ⟨encode_commandOf rfl (of_decide_eq_true hzero), wellFormed_commandOf w _⟩
  · rw [decodeWord_reserved hop] at h
    cases h

/-! ### An encoded command is decoded -/

/-- The opcode of a command (30_encoding R57). -/
def opcode : Instr → Fin 8
  | .getStatus           => 0
  | .setSpeed _          => 1
  | .step _ _            => 2
  | .doubleStep _ _      => 3
  | .interleavedStep _ _ => 4
  | .microStep _ _       => 5
  | .alignStep _         => 6
  | .setPin _ _          => 7

/-- Every encoding holds the fixed bits of its row of the opcode table. -/
theorem encode_and_tableMask (i : Instr) : encode i &&& tableMask i = tableMatch i := by
  cases i with
  | getStatus => exact Laws.EncodeMatchesTable.getStatus
  | setSpeed rpm => exact Laws.EncodeMatchesTable.setSpeed rpm
  | step c rev => exact Laws.EncodeMatchesTable.step c rev
  | doubleStep c rev => exact Laws.EncodeMatchesTable.doubleStep c rev
  | interleavedStep c rev => exact Laws.EncodeMatchesTable.interleavedStep c rev
  | microStep c rev => exact Laws.EncodeMatchesTable.microStep c rev
  | alignStep rev => exact Laws.EncodeMatchesTable.alignStep rev
  | setPin pin value => exact Laws.EncodeMatchesTable.setPin pin value

/-- What an encoding holds in bits that the opcode table fixes. -/
theorem encode_and_of_fixed (i : Instr) {mask : Word} (h : tableMask i &&& mask = mask) :
    encode i &&& mask = tableMatch i &&& mask := by
  rw [← encode_and_tableMask, BitVec.and_assoc, h]

theorem encode_and_mustBeZeroMask (i : Instr) : encode i &&& mustBeZeroMask (opcode i) = 0 := by
  rw [encode_and_of_fixed i (by cases i <;> simp [tableMask, opcode, mustBeZeroMask])]
  cases i <;> simp [tableMatch, opcode, mustBeZeroMask]

theorem encode_opcode (i : Instr) : (encode i).toNat % 16 = opcode i := by
  have hop : encode i &&& 0xF = tableMatch i &&& 0xF := encode_and_of_fixed i (by cases i <;> simp [tableMask])
  have hnat := congrArg BitVec.toNat hop
  rw [BitVec.toNat_and, show (0xF : Word).toNat = 2 ^ 4 - 1 from rfl, Nat.and_two_pow_sub_one_eq_mod] at hnat
  rw [hnat]
  cases i <;> simp [tableMatch, opcode]

theorem countField_formatS {c : Int} (h : countInRange c = true) (rev : Bool) (op : BitVec 4) :
    countField (formatS c rev op) = c := by
  have hhigh : highField (formatS c rev op) = BitVec.ofInt 16 c := by
    apply BitVec.eq_of_toNat_eq
    have := op.isLt
    have := rev.toNat_lt
    rw [highField_toNat, formatS_toNat]
    omega
  rw [countInRange, decide_eq_true_iff] at h
  rw [countField, hhigh, BitVec.toInt_ofInt]
  exact Int.bmod_eq_of_le (by omega) (by omega)

theorem revField_formatS (c : Int) (rev : Bool) (op : BitVec 4) : revField (formatS c rev op) = rev := by
  have := op.isLt
  rw [revField_eq, formatS_toNat]
  cases rev <;> simp <;> omega

/-- The fields of a well-formed command's encoding are its operands. -/
theorem commandOf_encode {i : Instr} (h : WellFormed i = true) : commandOf (encode i) (opcode i) = i := by
  cases i with
  | getStatus => rfl
  | setSpeed rpm =>
    have hrpm : rpm ≤ 65535 := of_decide_eq_true h
    rw [opcode, commandOf, rpmField_eq, encode_setSpeed_toNat]
    congr 1
    omega
  | step c rev => simp [opcode, commandOf, encode, countField_formatS (c := c) h, revField_formatS]
  | doubleStep c rev => simp [opcode, commandOf, encode, countField_formatS (c := c) h, revField_formatS]
  | interleavedStep c rev => simp [opcode, commandOf, encode, countField_formatS (c := c) h, revField_formatS]
  | microStep c rev => simp [opcode, commandOf, encode, countField_formatS (c := c) h, revField_formatS]
  | alignStep rev =>
    rw [opcode, commandOf, revField_eq, encode_alignStep_toNat]
    cases rev <;> rfl
  | setPin pin value =>
    rw [WellFormed, byteInRange, byteInRange, Bool.and_eq_true, decide_eq_true_iff, decide_eq_true_iff] at h
    rw [opcode, commandOf, pinField_eq, valueField_eq, encode_setPin_toNat]
    congr 1 <;> omega

/-- Settles O1: an encoding has its command's opcode, no must-be-zero bit, and its operands in the fields. -/
theorem decodeOfEncode : Obligations.DecodeOfEncode := by
  intro i h
  rw [decodeWord_defined (encode_opcode i), requireZero_ok]
  exact ⟨decide_eq_true (encode_and_mustBeZeroMask i), commandOf_encode h⟩

/-- Settles O5: each word is its command's encoding, and so decodes to it. -/
theorem workedEncodings : Obligations.WorkedEncodings := by
  intro p hp
  obtain ⟨henc, hwf⟩ := (by decide : ∀ q ∈ (_ : List (Instr × Word)), encode q.1 = q.2 ∧ WellFormed q.1 = true) p hp
  exact ⟨henc, henc ▸ decodeOfEncode p.1 hwf⟩

end Sys2Proof
end

section
/-! PROOFS. The family 30_encoding, second part: the response word (30_encoding R67), the answer to an illegal word (R62,
R63), and the one response that ends every command (10_state R25, 60_exceptions R137, 70_reset_and_hazards R150, R152). -/

namespace Sys2Proof.Machine

variable {s t : State}

/-! ### The response word -/

/-- Settles O23: the fields stand one after the other. -/
theorem responseWordLayout : Obligations.ResponseWordLayout := by
  intro s status
  have hphase := s.phase.isLt
  rw [State.responseWord, append_toNat, append_toNat, append_toNat, append_toNat, BitVec.zeroExtend_eq_setWidth,
    BitVec.toNat_setWidth]
  omega

/-! ### An illegal word -/

/-- An awake idle block with the bus free takes a word that is no command, counts one action, and raises
IllegalCommand. -/
theorem stepAwake_illegal {w : Word} {rest : List Byte} {r : Reject} (hbus : s.otherBusy = false)
    (hidle : s.inProgress = none) (htake : takeWord s.rx = some (w, rest)) (hdec : decodeWord w = .error r) :
    stepAwake s = .next (raise .illegalCommand ({ s with rx := rest } : State).countAction) := by
  simp [stepAwake, hbus, hidle, fetch_of_takeWord htake, hdec, illegalWord]

/-- An error that an idle block takes changes only FAULT, and is answered (60_exceptions R136, R137). -/
theorem raise_of_idle (e : ErrorKind) (hidle : s.inProgress = none) :
    raise e s = { s with
      fault := if s.fault = 0 then e.code else s.fault
      out := s.out ++ [.response ((raise e s).responseWord e.code)] } := by
  cases s
  cases hidle
  rfl

/-- Settles O8: with no reset coming, taking the word counts nothing, and the idle block stays idle. -/
theorem illegalWordRaisesIllegalCommand : Obligations.IllegalWordRaisesIllegalCommand := by
  intro s w rest r hreset hbus hidle htake hdec
  refine ⟨raise .illegalCommand { s with rx := rest }, ?_, raise_of_idle .illegalCommand hidle⟩
  rw [step_noReset hreset, stepAwake_illegal hbus hidle htake hdec, countAction_noReset { s with rx := rest } hreset]

/-! ### How a command ends -/

/-- From `s` to `t` a command has put out events only, and recorded no error. -/
structure Emitting (s t : State) : Prop where
  out        : ∃ es : List Event, t.out = s.out ++ es.map Output.event
  fault      : t.fault = s.fault
  resetInput : s.resetInput = none → t.resetInput = none

/-- From `s` to `t` a command has put out its events and then its one response, whose status FAULT takes where it was 0
(30_encoding R67, 60_exceptions R137). -/
def Answered (s t : State) : Prop :=
  ∃ (es : List Event) (status : BitVec 4),
    t.out = s.out ++ es.map Output.event ++ [.response (t.responseWord status)] ∧
    t.fault = (if s.fault = 0 then status else s.fault)

/-- What every reset leaves of the registers, the outputs and the inputs it clears (70_reset_and_hazards R150). -/
def AfterReset (t : State) : Prop :=
  t.phase = 0 ∧ t.pwmA = 255 ∧ t.pwmB = 255 ∧ t.sps = Config.sps0 ∧ t.fault = 0 ∧
    t.inProgress = none ∧ t.out = [] ∧ t.rx = [] ∧ t.resetInput = none

theorem resetNow_afterReset (left : Window) (s : State) : AfterReset (resetNow left s) :=
  ⟨rfl, rfl, rfl, rfl, rfl, rfl, rfl, rfl, rfl⟩

/-- From `s` to `t` a command has ended: with its response, or in a reset that was coming. -/
def Ended (s t : State) : Prop := Answered s t ∨ (s.resetInput ≠ none ∧ AfterReset t)

/-- A command that started in `s` and stands in `t` has only put out events so far, or has ended. -/
structure CommandRun (s t : State) : Prop where
  busy : t.inProgress ≠ none → Emitting s t
  idle : t.inProgress = none → Ended s t

theorem CommandRun.of_busy (hbusy : t.inProgress ≠ none) (h : Emitting s t) : CommandRun s t :=
  ⟨fun _ => h, fun hidle => absurd hidle hbusy⟩

theorem CommandRun.of_idle (hidle : t.inProgress = none) (h : Ended s t) : CommandRun s t :=
  ⟨fun hbusy => absurd hidle hbusy, fun _ => h⟩

namespace Emitting

theorem refl (s : State) : Emitting s s := ⟨⟨[], by simp⟩, rfl, id⟩

theorem emit (h : Emitting s t) (e : Event) : Emitting s (t.emit e) where
  out := by
    obtain ⟨es, hes⟩ := h.out
    exact ⟨es ++ [e], by simp [hes]⟩
  fault := h.fault
  resetInput := h.resetInput

/-- An operation that leaves the outputs, FAULT and a coming reset as they are. -/
theorem congr {u : State} (h : Emitting s t) (hout : u.out = t.out) (hfault : u.fault = t.fault)
    (hreset : u.resetInput = t.resetInput) : Emitting s u :=
  ⟨hout ▸ h.out, hfault ▸ h.fault, hreset ▸ h.resetInput⟩

theorem land (h : Emitting s t) (e : Event) : Emitting s (land t e) := by
  cases e <;> exact (h.emit _).congr rfl rfl rfl

theorem countAction (h : Emitting s t) : Emitting s t.countAction where
  out := by simpa using h.out
  fault := by simpa using h.fault
  resetInput hr := by rw [countAction_noReset t (h.resetInput hr)]; exact h.resetInput hr

/-- A command that responds with status 0 leaves FAULT as it is. -/
theorem respond (h : Emitting s t) : Answered s (respond 0 t) := by
  obtain ⟨es, hes⟩ := h.out
  refine ⟨es, 0, congrArg (· ++ _) hes, h.fault.trans ?_⟩
  split
  · assumption
  · rfl

theorem raise (h : Emitting s t) (e : ErrorKind) : Answered s (raise e t) := by
  obtain ⟨es, hes⟩ := h.out
  exact ⟨es, e.code, congrArg (· ++ _) hes, by rw [raise_fault, h.fault]⟩

/-- An action of a command in progress puts out an event, begins a physical step, or ends the command. -/
theorem act (h : Emitting s t) {p : InProgress} (hp : t.inProgress = some p) : CommandRun s (act t) := by
  rcases act_cases hp with ⟨e, es, -, ha⟩ | ⟨c, w, left, es, -, ha⟩ | ⟨mode, rev, d, loop', -, -, ha⟩ |
    ⟨-, -, ha⟩ <;> rw [ha]
  · exact .of_busy (by simp) ((h.congr rfl rfl rfl : Emitting s (t.setProgress (some ⟨es, p.loop⟩))).land e)
  · exact .of_idle rfl (.inl (((h.emit (.write c w)).congr rfl rfl rfl).raise .busError))
  · exact .of_busy (by simp [beginStep]) (h.congr (by simp [beginStep]) (by simp [beginStep]) (by simp [beginStep]))
  · exact .of_idle rfl (.inl h.respond)

/-- The reset that can strike before an action was coming when the command started. -/
theorem tick (h : Emitting s t) (hbusy : t.inProgress ≠ none) : CommandRun s (tick t) := by
  obtain ⟨p, hp⟩ := Option.ne_none_iff_exists'.mp hbusy
  rcases orReset_cases Machine.act t with ⟨left, hl, ht⟩ | ht <;> rw [Machine.tick, ht]
  · have hcoming : s.resetInput ≠ none := fun hr => by cases hl.symm.trans (h.resetInput hr)
    exact .of_idle rfl (.inr ⟨hcoming, resetNow_afterReset left t⟩)
  · exact h.countAction.act (by simpa using hp)

theorem runCommand (h : Emitting s t) (pending : List Event) (loop : Loop) :
    Ended s (Machine.runCommand pending loop t) := by
  have start : CommandRun s (t.setProgress (some ⟨pending, loop⟩)) :=
    ⟨fun _ => h.congr rfl rfl rfl, by rintro ⟨⟩⟩
  have run : CommandRun s (Machine.runCommand pending loop t) :=
    runToEnd_induct (fun u hbusy hu => (hu.busy hbusy).tick hbusy) _ start
  exact run.idle (runCommand_inProgress pending loop t)

end Emitting

/-- Every command ends with its response, or in a reset that was coming. -/
theorem exec_ended {i : Instr} (h : exec i s = .next t) : Ended s t := by
  have start := Emitting.refl s
  rcases exec_cases h with rfl | ⟨rpm, -, rfl⟩ | ⟨e, -, rfl⟩ | ⟨c, v, rfl⟩ | ⟨loop, u, rfl, hu, -⟩
  · exact .inl start.respond
  · exact .inl (start.congr rfl rfl rfl : Emitting s (s.setPace _)).respond
  · exact .inl (start.raise e)
  · exact start.runCommand _ _
  · have hentry : Emitting s u := by rcases hu with rfl | rfl <;> exact start.congr rfl rfl rfl
    exact hentry.runCommand _ _

/-- Settles O16, by what a run keeps: until it ends, a command has put out events only. -/
theorem commandEndsInResponseOrReset : Obligations.CommandEndsInResponseOrReset := by
  intro i s t hexec
  exact (exec_ended hexec).imp_left fun ⟨es, status, hout, _⟩ => ⟨es, status, hout⟩

/-- Settles O38: with no reset coming, a command ends in its response. -/
theorem oneResponsePerCommand : Obligations.OneResponsePerCommand := by
  intro i s t hreset hexec
  exact (exec_ended hexec).resolve_right fun ⟨hcoming, _⟩ => hcoming hreset

end Sys2Proof.Machine
end

section
/-! PROOFS. The family 40_speed: SET_SPEED with a pace to set, and SET_SPEED 0 (40_speed R75, 60_exceptions R133, R137). -/

namespace Sys2Proof.Machine

variable {s : State}

/-- The pace, with the product taken in the rationals. -/
theorem paceOfRpm_eq (rpm : Nat) : paceOfRpm rpm = 60 / (((Config.stepsPerRev : Nat) : Rat) * (rpm : Rat)) := by
  rw [paceOfRpm, Nat.cast_mul]

/-- The response of an idle block changes nothing but the outputs. -/
theorem respond_of_idle (c : BitVec 4) (hidle : s.inProgress = none) :
    respond c s = { s with out := s.out ++ [.response (s.responseWord c)] } := by
  cases s
  cases hidle
  rfl

theorem exec_setSpeed_zero (s : State) : exec (.setSpeed 0) s = .next (raise .divisionFault s) := rfl

theorem exec_setSpeed_of_ne_zero {rpm : Nat} (h : rpm ≠ 0) (s : State) :
    exec (.setSpeed rpm) s = .next (respond 0 (s.setPace (paceOfRpm rpm))) :=
  congrArg Host.Outcome.next (if_neg h)

/-- Settles O25: an idle block sets the pace and responds; the pace is positive as S and rpm are. -/
theorem setSpeedSetsPace : Obligations.SetSpeedSetsPace := by
  intro rpm s hidle hrpm
  have hanswer : respond 0 (s.setPace (paceOfRpm rpm)) =
      { s.setPace (paceOfRpm rpm) with out := s.out ++ [.response (s.responseWord 0)] } :=
    respond_of_idle 0 hidle
  rw [exec_setSpeed_of_ne_zero hrpm, hanswer, ← paceOfRpm_eq]
  exact ⟨rfl, paceOfRpm_pos hrpm⟩

/-- Settles O26: rpm 0 raises DivisionFault before any effect, and an idle block that takes an error changes FAULT
only. -/
theorem setSpeedZeroIsDivisionFault : Obligations.SetSpeedZeroIsDivisionFault := fun s hidle =>
  ⟨raise .divisionFault s, exec_setSpeed_zero s, raise_of_idle .divisionFault hidle⟩

end Sys2Proof.Machine
end

section
/-! PROOFS. The family 41_energize, first part: the phase advance (41_energize R90), the coil tuples (R80 to R85, R94,
R95), the drive strengths (R84) and the windows (R86, R87). -/

namespace Sys2Proof.Machine

/-! ### The phase advance -/

theorem stepDistance_le (mode : Mode) (k : Nat) : stepDistance mode k ≤ 8 := by
  cases mode with
  | whole => show (if k % 2 = 0 then 8 else 4) ≤ 8; split <;> omega
  | double => show (if k % 2 = 1 then 8 else 4) ≤ 8; split <;> omega
  | interleave => show 4 ≤ 8; omega
  | micro => show 1 ≤ 8; omega

/-- The phase moves by the mode's distance, with wrap at 32 (41_energize R90, R93). -/
theorem advancePhase_toNat (mode : Mode) (rev : Bool) (p : BitVec 5) :
    (advancePhase mode rev p).toNat =
      if rev then (p.toNat + 32 - stepDistance mode (halfStepIndex p)) % 32
      else (p.toNat + stepDistance mode (halfStepIndex p)) % 32 := by
  have hd := stepDistance_le mode (halfStepIndex p)
  have hp := p.isLt
  cases rev with
  | false => simp [advancePhase, signedDelta]; omega
  | true => simp [advancePhase, signedDelta]; omega

/-- Settles O17: the statement writes out the distance of each mode. -/
theorem phaseAdvance : Obligations.PhaseAdvance := by
  intro mode rev p
  cases mode with
  | whole => exact advancePhase_toNat .whole rev p
  | double => exact advancePhase_toNat .double rev p
  | interleave => exact advancePhase_toNat .interleave rev p
  | micro => exact advancePhase_toNat .micro rev p

/-! ### The coil tuples -/

/-- The row of the whole-step table that a PHASE selects (41_energize R82). -/
def coilRow (p : BitVec 5) : Fin 8 := Fin.ofNat 8 (halfStepIndex p)

theorem coilRow_val (p : BitVec 5) : (coilRow p).val = p.toNat / 4 :=
  Nat.mod_eq_of_lt (Nat.div_lt_of_lt_mul p.isLt)

theorem coilsWhole_eq (p : BitVec 5) : coilsWhole p = phaseTable (coilRow p) := rfl

/-- Settles O18: the table of eight by its row and the table of four by its quadrant. -/
theorem coilTables : Obligations.CoilTables := by
  intro p
  have hquadrant : (Fin.ofNat 4 (quadrant p)).val = p.toNat / 8 := Nat.mod_eq_of_lt (Nat.div_lt_of_lt_mul p.isLt)
  constructor
  · rw [coilsWhole_eq, ← coilRow_val]
    generalize coilRow p = k
    revert k; decide
  · rw [coilsMicro, ← hquadrant]
    generalize Fin.ofNat 4 (quadrant p) = q
    revert q; decide

/-- A phase that moves by `m` half-steps moves by `m` rows of the whole-step table. -/
theorem coilRow_advancePhase {mode : Mode} {p : BitVec 5} {m : Fin 8}
    (h : stepDistance mode (halfStepIndex p) = 4 * m) (rev : Bool) :
    coilRow (advancePhase mode rev p) = if rev then coilRow p - m else coilRow p + m := by
  have hp := p.isLt
  have hm := m.isLt
  apply Fin.ext
  rw [coilRow_val, advancePhase_toNat, h]
  cases rev with
  | false => simp only [Bool.false_eq_true, if_false, Fin.val_add, coilRow_val]; omega
  | true => simp only [if_true, Fin.val_sub, coilRow_val]; omega

/-- Neighbouring rows of the whole-step table differ in one signal, and rows two apart in two (41_energize R94). -/
theorem phaseTable_changes (m : Fin 8) (hm : m = 1 ∨ m = 2) (k : Fin 8) :
    (phaseTable k).changes (phaseTable (k + m)) = m ∧ (phaseTable k).changes (phaseTable (k - m)) = m := by
  rcases hm with rfl | rfl <;> revert k <;> decide

/-- A move by one or two half-steps, in either direction, changes one or two signals. -/
theorem coilsWhole_changes {mode : Mode} {p : BitVec 5} {m : Fin 8} (hm : m = 1 ∨ m = 2)
    (h : stepDistance mode (halfStepIndex p) = 4 * m) (rev : Bool) :
    (coilsWhole p).changes (coilsWhole (advancePhase mode rev p)) = m := by
  rw [coilsWhole_eq, coilsWhole_eq, coilRow_advancePhase h]
  cases rev with
  | false => exact (phaseTable_changes m hm _).1
  | true => exact (phaseTable_changes m hm _).2

/-- Settles O19: the rows are counted, and a step moves by one half-step in mode INTERLEAVE, and by two in mode WHOLE
from an even row and in mode DOUBLE from an odd one. -/
theorem coilCounts : Obligations.CoilCounts :=
  ⟨by decide, by decide, fun k => (phaseTable_changes 1 (.inl rfl) k).1,
    fun rev p => coilsWhole_changes (mode := .interleave) (p := p) (m := 1) (.inl rfl) rfl rev,
    fun rev p hp => coilsWhole_changes (mode := .whole) (p := p) (m := 2) (.inr rfl) (if_pos hp) rev,
    fun rev p hp => coilsWhole_changes (mode := .double) (p := p) (m := 2) (.inr rfl) (if_pos hp) rev⟩

/-! ### The drive strengths and the windows -/

theorem interpolate_of_lt_8 {x : Nat} (h : x < 8) : interpolate x = (Config.curve (8 - x), Config.curve x) := if_pos h

theorem interpolate_of_lt_16 {x : Nat} (h8 : 8 ≤ x) (h : x < 16) :
    interpolate x = (Config.curve (x - 8), Config.curve (16 - x)) :=
  (if_neg (by omega : ¬ x < 8)).trans (if_pos h)

theorem interpolate_of_lt_24 {x : Nat} (h16 : 16 ≤ x) (h : x < 24) :
    interpolate x = (Config.curve (24 - x), Config.curve (x - 16)) :=
  (if_neg (by omega : ¬ x < 8)).trans ((if_neg (by omega : ¬ x < 16)).trans (if_pos h))

theorem interpolate_of_24_le {x : Nat} (h : 24 ≤ x) :
    interpolate x = (Config.curve (x - 24), Config.curve (32 - x)) :=
  (if_neg (by omega : ¬ x < 8)).trans
    ((if_neg (by omega : ¬ x < 16)).trans (if_neg (by omega : ¬ x < 24)))

/-- Settles O20, quadrant by quadrant. -/
theorem microstepInterpolation : Obligations.MicrostepInterpolation := by
  intro s
  refine ⟨fun h => ?_, fun h8 h => ?_, fun h16 h => ?_, fun h => ?_, rfl, rfl, rfl⟩
  · simp [interpolate_of_lt_8 h]
  · simp [interpolate_of_lt_16 h8 h]
  · simp [interpolate_of_lt_24 h16 h]
  · simp [interpolate_of_24_le h]

/-- Settles O21: the four rows of R95; at each the curve is read at its two ends only. -/
theorem modesAgreeAtMultiplesOfM : Obligations.ModesAgreeAtMultiplesOfM :=
  ⟨⟨rfl, rfl, interpolate_of_lt_8 (by decide)⟩,
    ⟨rfl, rfl, interpolate_of_lt_16 (by decide) (by decide)⟩,
    ⟨rfl, rfl, interpolate_of_lt_24 (by decide) (by decide)⟩,
    ⟨rfl, rfl, interpolate_of_24_le (by decide)⟩⟩

/-- Settles O22: the windows are written so. -/
theorem dutyAndPinWindows : Obligations.DutyAndPinWindows := ⟨fun _ => ⟨rfl, rfl⟩, rfl, rfl, rfl, rfl⟩

end Sys2Proof.Machine
end

section
/-! PROOFS. The family 41_energize, second part: what physical steps do to the registers, to the trace and to the motor
channels (41_energize R88, R91, R96, 70_reset_and_hazards R156, R158). -/

namespace Sys2Proof.Machine

variable {mode : Mode} {rev : Bool} {d : Rat} {s : State}

/-! ### The registers -/

@[simp] theorem foldl_land_sps (es : List Event) (s : State) : (es.foldl land s).sps = s.sps := by
  induction es generalizing s with
  | nil => rfl
  | cons e es ih => simp [ih]

@[simp] theorem foldl_land_fault (es : List Event) (s : State) : (es.foldl land s).fault = s.fault := by
  induction es generalizing s with
  | nil => rfl
  | cons e es ih => simp [ih]

@[simp] theorem physicalStep_pwmA (mode : Mode) (rev : Bool) (d : Rat) (s : State) :
    (physicalStep mode rev d s).pwmA = (stepRegisters mode rev s).pwmA := by simp [physicalStep_eq]
@[simp] theorem physicalStep_pwmB (mode : Mode) (rev : Bool) (d : Rat) (s : State) :
    (physicalStep mode rev d s).pwmB = (stepRegisters mode rev s).pwmB := by simp [physicalStep_eq]
@[simp] theorem physicalStep_sps (mode : Mode) (rev : Bool) (d : Rat) (s : State) :
    (physicalStep mode rev d s).sps = s.sps := by simp [physicalStep_eq]
@[simp] theorem physicalStep_fault (mode : Mode) (rev : Bool) (d : Rat) (s : State) :
    (physicalStep mode rev d s).fault = s.fault := by simp [physicalStep_eq]

/-- The last of `n + 1` physical steps, taken apart. -/
theorem physicalSteps_succ (mode : Mode) (rev : Bool) (d : Rat) (n : Nat) (s : State) :
    physicalSteps mode rev d (n + 1) s = physicalStep mode rev d (physicalSteps mode rev d n s) := by
  induction n generalizing s with
  | zero => rfl
  | succ n ih => exact ih (physicalStep mode rev d s)

@[simp] theorem physicalSteps_resetInput (mode : Mode) (rev : Bool) (d : Rat) (n : Nat) (s : State) :
    (physicalSteps mode rev d n s).resetInput = s.resetInput := by
  induction n generalizing s with
  | zero => rfl
  | succ n ih => exact (ih _).trans (physicalStep_resetInput mode rev d s)

@[simp] theorem physicalSteps_answerAt (mode : Mode) (rev : Bool) (d : Rat) (n : Nat) (s : State) (k : Nat) :
    (physicalSteps mode rev d n s).answerAt k = s.answerAt k := by
  induction n generalizing s with
  | zero => rfl
  | succ n ih => exact (ih _).trans (physicalStep_answerAt mode rev d s k)

@[simp] theorem physicalSteps_busDraws (mode : Mode) (rev : Bool) (d : Rat) (n : Nat) (s : State) :
    (physicalSteps mode rev d n s).busDraws = s.busDraws + 6 * n := by
  induction n with
  | zero => rfl
  | succ n ih => rw [physicalSteps_succ, physicalStep_busDraws, ih]; omega

/-- In mode MICRO a step takes the drive strengths of its new PHASE (41_energize R84, R91). -/
theorem physicalStep_micro_strengths (rev : Bool) (d : Rat) (s : State) :
    (physicalStep .micro rev d s).pwmA = (interpolate (physicalStep .micro rev d s).phase.toNat).1 ∧
    (physicalStep .micro rev d s).pwmB = (interpolate (physicalStep .micro rev d s).phase.toNat).2 := by
  rw [physicalStep_pwmA, physicalStep_pwmB, physicalStep_phase]
  exact ⟨rfl, rfl⟩

/-- Settles O60: step `n + 1` comes after the first `n`. -/
theorem physicalStepRegisters : Obligations.PhysicalStepRegisters := by
  intro mode rev d n s x y
  have hy : y = physicalStep mode rev d x := physicalSteps_succ mode rev d n s
  rw [hy]
  refine ⟨physicalStep_phase mode rev d x, ?_, fun hmode => ?_, physicalStep_sps mode rev d x,
    physicalStep_fault mode rev d x⟩
  · rintro rfl
    exact physicalStep_micro_strengths rev d x
  · rw [physicalStep_pwmA, physicalStep_pwmB]
    exact stepRegisters_strengths hmode rev x

/-! ### The trace -/

/-- The events of `n` physical steps from `s`. -/
def stepsEvents (mode : Mode) (rev : Bool) (d : Rat) (n : Nat) (s : State) : List Event :=
  (List.range n).flatMap fun j => stepEvents mode d (stepRegisters mode rev (physicalSteps mode rev d j s))

theorem stepsEvents_succ (mode : Mode) (rev : Bool) (d : Rat) (n : Nat) (s : State) :
    stepsEvents mode rev d (n + 1) s =
      stepsEvents mode rev d n s ++ stepEvents mode d (stepRegisters mode rev (physicalSteps mode rev d n s)) := by
  simp [stepsEvents, List.range_succ]

theorem physicalSteps_out (mode : Mode) (rev : Bool) (d : Rat) (n : Nat) (s : State) :
    (physicalSteps mode rev d n s).out = s.out ++ (stepsEvents mode rev d n s).map Output.event := by
  induction n with
  | zero => simp [stepsEvents, physicalSteps]
  | succ n ih => simp [physicalSteps_succ, stepsEvents_succ, ih]

theorem stepsEvents_length (mode : Mode) (rev : Bool) (d : Rat) (n : Nat) (s : State) :
    (stepsEvents mode rev d n s).length = 7 * n := by
  induction n with
  | zero => rfl
  | succ n ih => rw [stepsEvents_succ, List.length_append, ih, stepEvents_length]; rfl

/-- The time that an event asks for at least (41_energize R89). -/
def Event.dwellTime : Event → Rat
  | .write _ _ => 0
  | .dwell d => d

/-- The one dwell of each physical step is `d` (70_reset_and_hazards R156). -/
theorem stepsEvents_dwells (mode : Mode) (rev : Bool) (d : Rat) (n : Nat) (s : State) :
    ((stepsEvents mode rev d n s).map Event.dwellTime).sum = n * d := by
  have hstep : ∀ x, ((stepEvents mode d x).map Event.dwellTime).sum = d := fun x => by
    simp [stepEvents, energize, duty, pinWrite, Event.dwellTime]
  induction n with
  | zero => simp [stepsEvents]
  | succ n ih => rw [stepsEvents_succ, List.map_append, List.sum_append, ih, hstep]; push_cast; ring

/-- Settles O48: the seven events of the statement are those of `stepEvents`, and the rest is by induction on the
number of steps. -/
theorem physicalStepsTrace : Obligations.PhysicalStepsTrace := by
  intro mode rev d n s seven
  have hseven : seven = fun x => stepEvents mode d (stepRegisters mode rev x) :=
    funext fun x => by cases mode <;> rfl
  rw [hseven]
  exact ⟨physicalStep_out mode rev d s, stepsEvents mode rev d n s, rfl, physicalSteps_out mode rev d n s,
    stepsEvents_length mode rev d n s, stepsEvents_dwells mode rev d n s⟩

/-! ### The motor channels -/

/-- The channel that an event writes. -/
def Event.chan? : Event → Option Chan
  | .write c _ => some c
  | .dwell _ => none

/-- Events that write channel `c` nowhere leave it. -/
theorem foldl_land_chan_of_notMem {c : Chan} {es : List Event} (h : c ∉ es.filterMap Event.chan?) (s : State) :
    (es.foldl land s).chan c = s.chan c := by
  induction es generalizing s with
  | nil => rfl
  | cons e es ih =>
    have hrest : c ∉ es.filterMap Event.chan? := fun hmem =>
      h (((List.sublist_cons_self e es).filterMap _).subset hmem)
    have hhead : ∀ w, e ≠ .write c w := by rintro w rfl; exact h (by simp [Event.chan?])
    exact (ih hrest _).trans (land_chan_ne hhead s)

/-- Where no channel is written twice, each write stands at the end. -/
theorem foldl_land_chan_of_mem {c : Chan} {w : Window} {es : List Event} (hnd : (es.filterMap Event.chan?).Nodup)
    (hmem : Event.write c w ∈ es) (s : State) : (es.foldl land s).chan c = w := by
  induction es generalizing s with
  | nil => cases hmem
  | cons e es ih =>
    rcases List.mem_cons.mp hmem with rfl | hmem
    · have hrest : c ∉ es.filterMap Event.chan? := (List.nodup_cons.mp hnd).1
      exact (foldl_land_chan_of_notMem hrest _).trans (setChan_chan_self _ c w)
    · exact ih (hnd.sublist ((List.sublist_cons_self e es).filterMap _)) hmem _

/-- A physical step writes no channel twice. -/
theorem stepEvents_chans_nodup (mode : Mode) (d : Rat) (s : State) :
    ((stepEvents mode d s).filterMap Event.chan?).Nodup := motorChans_nodup

/-- The motor channels hold what ENERGIZE writes from the registers as they stand (41_energize R88). -/
def State.Energized (micro : Bool) (s : State) : Prop := ∀ c w, Event.write c w ∈ energize micro s → s.chan c = w

/-- The six windows of an energized state, by signal. -/
theorem State.Energized.windows {micro : Bool} (h : s.Energized micro) :
    s.chan Config.wiring.pwma = dutyWindow s.pwmA ∧ s.chan Config.wiring.pwmb = dutyWindow s.pwmB ∧
    s.chan Config.wiring.ain2 = pinWindow (coils micro s.phase).ain2 ∧
    s.chan Config.wiring.bin1 = pinWindow (coils micro s.phase).bin1 ∧
    s.chan Config.wiring.ain1 = pinWindow (coils micro s.phase).ain1 ∧
    s.chan Config.wiring.bin2 = pinWindow (coils micro s.phase).bin2 := by
  refine ⟨h _ _ ?_, h _ _ ?_, h _ _ ?_, h _ _ ?_, h _ _ ?_, h _ _ ?_⟩ <;> simp [energize, duty, pinWrite]

/-- A physical step, whatever the channels held before, leaves the block energized. -/
theorem physicalStep_energized (mode : Mode) (rev : Bool) (d : Rat) (s : State) :
    (physicalStep mode rev d s).Energized (mode = .micro) := by
  intro c w hw
  have henergize : energize (mode = .micro) (physicalStep mode rev d s) =
      energize (mode = .micro) (stepRegisters mode rev s) := by simp [energize]
  rw [henergize] at hw
  have hmem : Event.write c w ∈ stepEvents mode d (stepRegisters mode rev s) := List.mem_append_left _ hw
  rw [physicalStep_eq]
  exact foldl_land_chan_of_mem (stepEvents_chans_nodup mode d _) hmem _

end Sys2Proof.Machine
end

section
/-! PROOFS. The family 41_energize, third part: a run of physical steps to its end or to its first failing write
(41_energize R92, 60_exceptions R134, R137), and the stepping commands as such runs (42_stepping R100 to R105). -/

namespace Sys2Proof.Machine

variable {mode : Mode} {rev : Bool} {d : Rat} {loop : Loop} {s t : State}

/-! ### The steps of a loop -/

/-- Every physical step that the loop asks for has this mode, direction and dwell. -/
def Loop.Makes (mode : Mode) (rev : Bool) (d : Rat) : Loop → Prop
  | .finished => True
  | .counted m r u _ => m = mode ∧ r = rev ∧ u = d
  | .untilAligned r u => mode = .micro ∧ r = rev ∧ u = d

/-- A loop with steps left asks for one. -/
theorem Loop.Makes.next {phase : BitVec 5} (h : loop.Makes mode rev d) (hleft : 0 < loop.stepsLeft phase) :
    ∃ loop', loop.next phase = some (mode, rev, d, loop') ∧ loop'.Makes mode rev d := by
  cases loop with
  | finished => cases hleft
  | counted m r u n =>
    obtain ⟨rfl, rfl, rfl⟩ := h
    cases n with
    | zero => cases hleft
    | succ n => exact ⟨_, rfl, rfl, rfl, rfl⟩
  | untilAligned r u =>
    obtain ⟨rfl, rfl, rfl⟩ := h
    have hnot : ¬ (phase.toNat = 0 ∨ phase.toNat = 8) := fun ha => by
      simp [Loop.stepsLeft, alignSteps, ha] at hleft
    exact ⟨_, loop_next_notAligned _ _ hnot, rfl, rfl, rfl⟩

/-- A loop with no steps left is over. -/
theorem Loop.next_eq_none {phase : BitVec 5} (hleft : loop.stepsLeft phase = 0) : loop.next phase = none := by
  rcases hn : loop.next phase with _ | ⟨mode, rev, d, loop'⟩
  · rfl
  · have := Loop.stepsLeft_next hn
    omega

/-- Eight actions for each of `n` physical steps, where all their writes succeed. -/
theorem runTicks_steps {n : Nat} (h : loop.Makes mode rev d) (hn : n ≤ loop.stepsLeft s.phase)
    (hreset : s.resetInput = none) (hok : s.BusOk (6 * n)) :
    ∃ loop', loop'.Makes mode rev d ∧
      loop'.stepsLeft (physicalSteps mode rev d n s).phase + n = loop.stepsLeft s.phase ∧
      ∀ fuel, runTicks (8 * n + fuel) (s.setProgress (some ⟨[], loop⟩)) =
        runTicks fuel ((physicalSteps mode rev d n s).setProgress (some ⟨[], loop'⟩)) := by
  induction n generalizing s loop with
  | zero => exact ⟨loop, h, rfl, fun fuel => by rw [Nat.mul_zero, Nat.zero_add]; rfl⟩
  | succ n ih =>
    obtain ⟨loop₁, hnext, h₁⟩ := h.next (by omega : 0 < loop.stepsLeft s.phase)
    have hone := Loop.stepsLeft_next hnext
    obtain ⟨loop', h', hleft, hrun⟩ := ih (s := physicalStep mode rev d s) h₁ (by rw [physicalStep_phase]; omega)
      (by simpa using hreset) (BusOk_physicalStep hok)
    rw [physicalStep_phase] at hleft
    refine ⟨loop', h', by rw [physicalSteps]; omega, fun fuel => ?_⟩
    rw [show 8 * (n + 1) + fuel = 8 + (8 * n + fuel) by omega,
      runTicks_step _ s hnext hreset (BusOk_mono hok (by omega))]
    exact hrun fuel

/-- A command whose writes all succeed makes every physical step that its loop asks for, and responds with status 0. -/
theorem runCommand_completes {n : Nat} (h : loop.Makes mode rev d) (hn : n = loop.stepsLeft s.phase)
    (hquiet : s.Quiet (6 * n)) : runCommand [] loop s = respond 0 (physicalSteps mode rev d n s) := by
  obtain ⟨hreset, hok⟩ := hquiet
  obtain ⟨loop', -, hleft, hrun⟩ := runTicks_steps h hn.le hreset hok
  have hbound := loop.stepsLeft_le_bound s.phase
  have hfuel : ([] : List Event).length + 8 * loop.bound + 1 = 8 * n + (8 * (loop.bound - n) + 1) := by
    rw [List.length_nil]; omega
  rw [runCommand_eq, hfuel, hrun]
  exact runTicks_end _ _ (Loop.next_eq_none (by omega)) (by simpa using hreset)

/-! ### The first failing write -/

/-- The first six events of a physical step are its writes. -/
theorem stepEvents_write {k : Nat} (hk : k < 6) (mode : Mode) (d : Rat) (s : State) :
    ∃ c w, (stepEvents mode d s)[k]? = some (.write c w) ∧
      stepEvents mode d s = (stepEvents mode d s).take k ++ .write c w :: (stepEvents mode d s).drop (k + 1) := by
  interval_cases k <;> exact ⟨_, _, rfl, rfl⟩

theorem writeCount_take_stepEvents {k : Nat} (hk : k < 6) (mode : Mode) (d : Rat) (s : State) :
    writeCount ((stepEvents mode d s).take k) = k := by
  interval_cases k <;> rfl

theorem failedStep_eq {k : Nat} {c : Chan} {w : Window} (left : Window)
    (h : (stepEvents mode d (stepRegisters mode rev s))[k]? = some (.write c w)) :
    failedStep mode rev d k left s =
      raise .busError (((partialStep mode rev d k s).emit (.write c w)).countDraw.setChan c left) := by
  rw [failedStep, h]

/-- A loop that asks for a physical step whose write number `k` is the first to fail ends in that step. -/
theorem runTicks_failedStep {loop' : Loop} {k : Nat} {left : Window} (fuel : Nat) (hk : k < 6)
    (hn : loop.next s.phase = some (mode, rev, d, loop')) (hreset : s.resetInput = none) (hok : s.BusOk k)
    (hfail : s.answerAt (s.busDraws + k) = .fail left) :
    runTicks (8 + fuel) (s.setProgress (some ⟨[], loop⟩)) = failedStep mode rev d k left s := by
  obtain ⟨c, w, hwrite, hsplit⟩ := stepEvents_write hk mode d (stepRegisters mode rev s)
  have hcount := writeCount_take_stepEvents hk mode d (stepRegisters mode rev s)
  have hfuel : 7 + fuel = ((stepEvents mode d (stepRegisters mode rev s)).take k).length + ((6 - k + fuel) + 1) := by
    rw [List.length_take, stepEvents_length]; omega
  rw [failedStep_eq left hwrite, show 8 + fuel = (7 + fuel) + 1 by omega, runTicks_busy _ (setProgress_inProgress s _),
    tick_noReset (by simpa using hreset), act_loop rfl, continueLoop_begin (by simpa using hn), beginStep_setProgress,
    hsplit, hfuel, runTicks_events _ _ _ _ _ (by simpa using hreset) (by rw [hcount]; simpa [State.BusOk] using hok)]
  exact runTicks_failing_write _ _ _ _ _ _ _ (by simpa using hreset) (by simpa [hcount] using hfail)

/-- A command whose write number `k` of physical step `j` is the first to fail: the steps before it stand, and it ends
in that step (41_energize R92). -/
theorem runCommand_stops {j k : Nat} {left : Window} (h : loop.Makes mode rev d) (hj : j < loop.stepsLeft s.phase)
    (hk : k < 6) (hreset : s.resetInput = none) (hok : s.BusOk (6 * j + k))
    (hfail : s.answerAt (s.busDraws + (6 * j + k)) = .fail left) :
    runCommand [] loop s = failedStep mode rev d k left (physicalSteps mode rev d j s) := by
  obtain ⟨loop', h', hleft, hrun⟩ := runTicks_steps h hj.le hreset (BusOk_mono hok (Nat.le_add_right _ _))
  obtain ⟨loop'', hnext, -⟩ := h'.next (by omega : 0 < loop'.stepsLeft (physicalSteps mode rev d j s).phase)
  have hbound := loop.stepsLeft_le_bound s.phase
  have hfuel : ([] : List Event).length + 8 * loop.bound + 1 = 8 * j + (8 + (8 * (loop.bound - j - 1) + 1)) := by
    rw [List.length_nil]; omega
  rw [runCommand_eq, hfuel, hrun]
  refine runTicks_failedStep _ hk hnext (by simpa using hreset) (fun i hi => ?_) (by simpa [Nat.add_assoc] using hfail)
  simpa [Nat.add_assoc] using hok (6 * j + i) (by omega)

/-! ### The stepping commands -/

theorem microDwell_eq (s : State) : microDwell s = s.sps / 8 := by simp [microDwell]

theorem exec_step (count : Int) (rev : Bool) (s : State) :
    exec (.step count rev) s = .next (runCommand [] (.counted .whole rev s.sps count.toNat) (fullStrength s)) := rfl

theorem exec_doubleStep (count : Int) (rev : Bool) (s : State) :
    exec (.doubleStep count rev) s =
      .next (runCommand [] (.counted .double rev s.sps count.toNat) (fullStrength s)) := rfl

theorem exec_interleavedStep (count : Int) (rev : Bool) (s : State) :
    exec (.interleavedStep count rev) s =
      .next (runCommand [] (.counted .interleave rev (s.sps / 2) count.toNat) (fullStrength s)) := rfl

theorem exec_microStep (count : Int) (rev : Bool) (s : State) :
    exec (.microStep count rev) s = .next (runCommand [] (.counted .micro rev (s.sps / 8) (count.toNat * 8)) s) := by
  rw [← microDwell_eq]; rfl

theorem exec_alignStep (rev : Bool) (s : State) :
    exec (.alignStep rev) s = .next (runCommand [] (.untilAligned rev (s.sps / 8)) s) := by
  rw [← microDwell_eq]; rfl

theorem counted_makes (mode : Mode) (rev : Bool) (d : Rat) (n : Nat) :
    (Loop.counted mode rev d n).Makes mode rev d := ⟨rfl, rfl, rfl⟩

theorem untilAligned_makes (rev : Bool) (d : Rat) : (Loop.untilAligned rev d).Makes .micro rev d := ⟨rfl, rfl, rfl⟩

/-- Settles O35: each counted command is a run of its steps. -/
theorem steppingStopsAtBusError : Obligations.SteppingStopsAtBusError := by
  intro count rev s j k left hreset hk hok hfail
  refine ⟨fun hj => ?_, fun hj => ?_, fun hj => ?_, fun hj => ?_⟩
  · rw [exec_step]
    exact congrArg Host.Outcome.next
      (runCommand_stops (s := fullStrength s) (counted_makes .whole rev s.sps count.toNat) hj hk hreset hok hfail)
  · rw [exec_doubleStep]
    exact congrArg Host.Outcome.next
      (runCommand_stops (s := fullStrength s) (counted_makes .double rev s.sps count.toNat) hj hk hreset hok hfail)
  · rw [exec_interleavedStep]
    exact congrArg Host.Outcome.next
      (runCommand_stops (s := fullStrength s) (counted_makes .interleave rev (s.sps / 2) count.toNat) hj hk hreset hok
        hfail)
  · rw [exec_microStep]
    exact congrArg Host.Outcome.next
      (runCommand_stops (s := s) (counted_makes .micro rev (s.sps / 8) (count.toNat * 8)) hj hk hreset hok hfail)

/-- Settles O36: ALIGN_STEP is a run of as many microsteps as `alignSteps` counts. -/
theorem alignStopsAtBusError : Obligations.AlignStopsAtBusError := by
  intro rev s j k left hreset hk hj hok hfail
  rw [exec_alignStep, runCommand_stops (untilAligned_makes _ _) hj hk hreset hok hfail]

/-- A command with at least one physical step, whose writes all succeed, ends in a last physical step and the
response. -/
theorem runCommand_lastStep (h : loop.Makes mode rev d) (hpos : 0 < loop.stepsLeft s.phase)
    (hquiet : s.Quiet (6 * loop.stepsLeft s.phase)) :
    ∃ x, runCommand [] loop s = respond 0 (physicalStep mode rev d x) := by
  obtain ⟨n, hn⟩ := Nat.exists_eq_succ_of_ne_zero hpos.ne'
  exact ⟨physicalSteps mode rev d n s, by rw [runCommand_completes h rfl hquiet, hn, ← physicalSteps_succ]⟩

/-- Such a command leaves the block energized. -/
theorem runCommand_energized (h : loop.Makes mode rev d) (hpos : 0 < loop.stepsLeft s.phase)
    (hquiet : s.Quiet (6 * loop.stepsLeft s.phase)) : (runCommand [] loop s).Energized (mode = .micro) := by
  obtain ⟨x, hx⟩ := runCommand_lastStep h hpos hquiet
  rw [hx]
  exact physicalStep_energized mode rev d x

/-- STEP, DOUBLE_STEP and INTERLEAVED_STEP end energized by the whole-step table. -/
theorem exec_wholeStep_energized {count : Int} (hcount : 0 < count) (hquiet : s.Quiet (6 * count.toNat))
    (hexec : exec (.step count rev) s = .next t ∨ exec (.doubleStep count rev) s = .next t ∨
      exec (.interleavedStep count rev) s = .next t) : t.Energized false := by
  have hpos : 0 < count.toNat := by omega
  rcases hexec with h | h | h
  · cases h
    exact runCommand_energized (s := fullStrength s) (counted_makes .whole rev s.sps count.toNat) hpos hquiet
  · cases h
    exact runCommand_energized (s := fullStrength s) (counted_makes .double rev s.sps count.toNat) hpos hquiet
  · cases h
    exact runCommand_energized (s := fullStrength s) (counted_makes .interleave rev (s.sps / 2) count.toNat) hpos hquiet

/-- MICRO_STEP and ALIGN_STEP end with a microstep and the response. -/
theorem exec_micro_lastStep {count : Int}
    (h : (0 < count ∧ s.Quiet (6 * (count.toNat * 8)) ∧ exec (.microStep count rev) s = .next t) ∨
      (0 < alignSteps rev s.phase.toNat ∧ s.Quiet (6 * alignSteps rev s.phase.toNat) ∧
        exec (.alignStep rev) s = .next t)) :
    ∃ x, t = respond 0 (physicalStep .micro rev (s.sps / 8) x) := by
  rcases h with ⟨hcount, hquiet, hexec⟩ | ⟨hpos, hquiet, hexec⟩
  · rw [exec_microStep] at hexec
    cases hexec
    have hpos : 0 < count.toNat * 8 := by omega
    exact runCommand_lastStep (counted_makes .micro rev (s.sps / 8) (count.toNat * 8)) hpos hquiet
  · rw [exec_alignStep] at hexec
    cases hexec
    exact runCommand_lastStep (untilAligned_makes rev (s.sps / 8)) hpos hquiet

/-- Settles O54: the last physical step energizes the motor channels from the registers it leaves, which hold both
strengths at 255 after a full-strength command, and those of INTERP after a microstep. -/
theorem stepDrivesCoilsOfFinalPhase : Obligations.StepDrivesCoilsOfFinalPhase := by
  constructor
  · intro count rev s t hcount hquiet hexec
    obtain ⟨hA, hB⟩ := wholeStepCommandsKeepFullStrength count rev s t hquiet.1 hexec
    have hwindows := (exec_wholeStep_energized hcount hquiet hexec).windows
    rw [hA, hB] at hwindows
    exact hwindows
  · intro count rev s t h
    obtain ⟨x, rfl⟩ := exec_micro_lastStep h
    obtain ⟨hA, hB⟩ := physicalStep_micro_strengths rev (s.sps / 8) x
    have hwindows := (physicalStep_energized .micro rev (s.sps / 8) x).windows
    rw [hA, hB] at hwindows
    exact ⟨hA, hB, hwindows⟩

end Sys2Proof.Machine
end

section
/-! PROOFS. The family 42_stepping, first part: every command ends, and the stepping commands where every write succeeds
(42_stepping R100 to R105, R107, 60_exceptions R139). -/

namespace Sys2Proof.Machine

variable {mode : Mode} {rev : Bool} {d : Rat} {n : Nat} {count : Int} {s : State}

/-- Settles O15: every run lowers `actionsLeft`, which is within the bound it runs under. -/
theorem everyCommandEnds : Obligations.EveryCommandEnds := exec_ends

/-! ### The counted commands -/

theorem runCommand_counted (hquiet : s.Quiet (6 * n)) :
    runCommand [] (.counted mode rev d n) s = respond 0 (physicalSteps mode rev d n s) :=
  runCommand_completes (counted_makes mode rev d n) rfl hquiet

theorem exec_step_completes (hquiet : s.Quiet (6 * count.toNat)) :
    exec (.step count rev) s = .next (respond 0 (physicalSteps .whole rev s.sps count.toNat (fullStrength s))) := by
  rw [exec_step]
  exact congrArg Host.Outcome.next (runCommand_counted (s := fullStrength s) hquiet)

theorem exec_doubleStep_completes (hquiet : s.Quiet (6 * count.toNat)) :
    exec (.doubleStep count rev) s =
      .next (respond 0 (physicalSteps .double rev s.sps count.toNat (fullStrength s))) := by
  rw [exec_doubleStep]
  exact congrArg Host.Outcome.next (runCommand_counted (s := fullStrength s) hquiet)

theorem exec_interleavedStep_completes (hquiet : s.Quiet (6 * count.toNat)) :
    exec (.interleavedStep count rev) s =
      .next (respond 0 (physicalSteps .interleave rev (s.sps / 2) count.toNat (fullStrength s))) := by
  rw [exec_interleavedStep]
  exact congrArg Host.Outcome.next (runCommand_counted (s := fullStrength s) hquiet)

theorem exec_microStep_completes (hquiet : s.Quiet (6 * (count.toNat * 8))) :
    exec (.microStep count rev) s =
      .next (respond 0 (physicalSteps .micro rev (s.sps / 8) (count.toNat * 8) s)) := by
  rw [exec_microStep, runCommand_counted hquiet]

/-- Settles O27: `max(count, 0)` is `count.toNat`. -/
theorem stepRuns : Obligations.StepRuns := by
  intro count rev s n hn hquiet
  obtain rfl : n = count.toNat := by omega
  exact exec_step_completes hquiet

/-- Settles O28, likewise. -/
theorem doubleStepRuns : Obligations.DoubleStepRuns := by
  intro count rev s n hn hquiet
  obtain rfl : n = count.toNat := by omega
  exact exec_doubleStep_completes hquiet

/-- Settles O29, likewise. -/
theorem interleavedStepRuns : Obligations.InterleavedStepRuns := by
  intro count rev s n hn hquiet
  obtain rfl : n = count.toNat := by omega
  exact exec_interleavedStep_completes hquiet

/-- Settles O30, likewise, with eight microsteps for each count. -/
theorem microStepRuns : Obligations.MicroStepRuns := by
  intro count rev s n hn hquiet
  obtain rfl : n = count.toNat * 8 := by omega
  exact exec_microStep_completes hquiet

/-- With no reset coming, no write asks nothing of the bus. -/
theorem quiet_zero (hreset : s.resetInput = none) : s.Quiet 0 := ⟨hreset, fun _ hk => absurd hk (Nat.not_lt_zero _)⟩

/-- Settles O34: a count of 0 or less asks for no physical step, and so for no good write. -/
theorem noStepsForCountZeroOrLess : Obligations.NoStepsForCountZeroOrLess := by
  intro count rev s hcount hreset
  have hzero : count.toNat = 0 := Int.toNat_of_nonpos hcount
  have hquiet : s.Quiet (6 * count.toNat) := hzero ▸ quiet_zero hreset
  have hmicro : s.Quiet (6 * (count.toNat * 8)) := hzero ▸ quiet_zero hreset
  rw [exec_step_completes hquiet, exec_doubleStep_completes hquiet, exec_interleavedStep_completes hquiet,
    exec_microStep_completes hmicro, hzero]
  exact ⟨rfl, rfl, rfl, rfl⟩

/-! ### ALIGN_STEP -/

theorem physicalSteps_phase (mode : Mode) (rev : Bool) (d : Rat) (n : Nat) (s : State) :
    (physicalSteps mode rev d n s).phase = (advancePhase mode rev)^[n] s.phase := by
  induction n generalizing s with
  | zero => rfl
  | succ n ih => rw [physicalSteps, ih, physicalStep_phase, Function.iterate_succ_apply]

theorem alignSteps_eq_zero_iff (rev : Bool) (p : BitVec 5) : alignSteps rev p.toNat = 0 ↔ p = 0 ∨ p = 8 := by
  have hp := p.isLt
  have h0 : p = 0 ↔ p.toNat = 0 := BitVec.toNat_inj.symm
  have h8 : p = 8 ↔ p.toNat = 8 := BitVec.toNat_inj.symm
  rw [h0, h8]
  unfold alignSteps
  split_ifs <;> omega

/-- The longest way to an aligned PHASE is from 9 forward to 32 or from 31 in reverse to 8 (42_stepping R107). -/
theorem alignSteps_le_23 (rev : Bool) (p : BitVec 5) : alignSteps rev p.toNat ≤ 23 := by
  have hp := p.isLt
  unfold alignSteps
  split_ifs <;> omega

/-- `n` microsteps of those that ALIGN_STEP needs leave it `n` fewer. -/
theorem alignSteps_iterate {p : BitVec 5} (hn : n ≤ alignSteps rev p.toNat) :
    alignSteps rev ((advancePhase .micro rev)^[n] p).toNat + n = alignSteps rev p.toNat := by
  induction n with
  | zero => rfl
  | succ n ih =>
    have hleft := ih (by omega)
    have hnot : ¬ (((advancePhase .micro rev)^[n] p).toNat = 0 ∨ ((advancePhase .micro rev)^[n] p).toNat = 8) :=
      fun ha => by
        have : alignSteps rev ((advancePhase .micro rev)^[n] p).toNat = 0 := if_pos ha
        omega
    have hone := alignSteps_advancePhase rev hnot
    rw [Function.iterate_succ_apply']
    omega

/-- The microsteps that ALIGN_STEP runs end at 0 or 8 (42_stepping R107). -/
theorem iterate_alignSteps_aligned (rev : Bool) (p : BitVec 5) :
    (advancePhase .micro rev)^[alignSteps rev p.toNat] p = 0 ∨
      (advancePhase .micro rev)^[alignSteps rev p.toNat] p = 8 := by
  have hleft := alignSteps_iterate (le_refl (alignSteps rev p.toNat))
  exact (alignSteps_eq_zero_iff rev _).mp (by omega)

theorem exec_alignStep_completes (hquiet : s.Quiet (6 * alignSteps rev s.phase.toNat)) :
    exec (.alignStep rev) s =
      .next (respond 0 (physicalSteps .micro rev (s.sps / 8) (alignSteps rev s.phase.toNat) s)) := by
  rw [exec_alignStep, runCommand_completes (untilAligned_makes rev (s.sps / 8)) rfl hquiet]
  rfl

/-- Settles O31: the loop test counts the steps left down to 0, which is where PHASE is aligned. -/
theorem alignStepRuns : Obligations.AlignStepRuns := by
  intro rev s hquiet
  rw [physicalSteps_phase]
  exact ⟨exec_alignStep_completes hquiet, alignSteps_le_23 rev s.phase, iterate_alignSteps_aligned rev s.phase⟩

end Sys2Proof.Machine
end

section
/-! PROOFS. The family 42_stepping, second part: STEP, DOUBLE_STEP, INTERLEAVED_STEP and MICRO_STEP forward and then back
(42_stepping R106). -/

namespace Sys2Proof.Machine

variable {mode : Mode} {p : BitVec 5} {d d' : Rat} {n : Nat} {s t u : State}

/-! ### The phase alone -/

/-- The phases that a mode's moves lead to and stay in: an even half-step index in mode WHOLE, an odd one in mode DOUBLE,
all phases in the others (42_stepping R108). -/
def Mode.Keeps : Mode → BitVec 5 → Prop
  | .whole, p => p.toNat / 4 % 2 = 0
  | .double, p => p.toNat / 4 % 2 = 1
  | .interleave, _ => True
  | .micro, _ => True

theorem stepDistance_whole (p : BitVec 5) :
    stepDistance .whole (halfStepIndex p) = if p.toNat / 4 % 2 = 0 then 8 else 4 := rfl

theorem stepDistance_double (p : BitVec 5) :
    stepDistance .double (halfStepIndex p) = if p.toNat / 4 % 2 = 1 then 8 else 4 := rfl

/-- The first move enters the class that the mode keeps, wherever it starts. -/
theorem advancePhase_keeps (mode : Mode) (rev : Bool) (p : BitVec 5) : mode.Keeps (advancePhase mode rev p) := by
  have hp := p.isLt
  cases mode with
  | whole =>
    rw [Mode.Keeps, advancePhase_toNat, stepDistance_whole]
    split_ifs <;> omega
  | double =>
    rw [Mode.Keeps, advancePhase_toNat, stepDistance_double]
    split_ifs <;> omega
  | interleave => trivial
  | micro => trivial

theorem iterate_keeps (h : mode.Keeps p) (rev : Bool) (n : Nat) : mode.Keeps ((advancePhase mode rev)^[n] p) :=
  Function.Iterate.rec mode.Keeps h (fun q _ => advancePhase_keeps mode rev q) n

/-- A move from a phase of the class has the same length in both directions. -/
theorem stepDistance_advancePhase (h : mode.Keeps p) (rev : Bool) :
    stepDistance mode (halfStepIndex (advancePhase mode rev p)) = stepDistance mode (halfStepIndex p) := by
  have hnext := advancePhase_keeps mode rev p
  cases mode with
  | whole => exact (if_pos hnext).trans (if_pos h).symm
  | double => exact (if_pos hnext).trans (if_pos h).symm
  | interleave => rfl
  | micro => rfl

theorem advancePhase_back_of_keeps (h : mode.Keeps p) : advancePhase mode true (advancePhase mode false p) = p := by
  have hp := p.isLt
  have hd := stepDistance_le mode (halfStepIndex p)
  apply BitVec.eq_of_toNat_eq
  rw [advancePhase_toNat, stepDistance_advancePhase h, advancePhase_toNat]
  simp only [if_true, Bool.false_eq_true, if_false]
  omega

/-- From outside the class a mode moves 4 forward, and then 8 back. -/
theorem advancePhase_back_of_not_keeps (h : ¬ mode.Keeps p) :
    advancePhase mode true (advancePhase mode false p) = p - 4 := by
  have hp := p.isLt
  have hnext := advancePhase_keeps mode false p
  have hdist : stepDistance mode (halfStepIndex p) = 4 ∧
      stepDistance mode (halfStepIndex (advancePhase mode false p)) = 8 := by
    cases mode with
    | whole => exact ⟨if_neg h, if_pos hnext⟩
    | double => exact ⟨if_neg h, if_pos hnext⟩
    | interleave => exact absurd trivial h
    | micro => exact absurd trivial h
  apply BitVec.eq_of_toNat_eq
  rw [advancePhase_toNat, hdist.2, advancePhase_toNat, hdist.1, BitVec.toNat_sub]
  show ((p.toNat + 4) % 32 + 32 - 8) % 32 = (32 - 4 + p.toNat) % 32
  omega

/-- `n` moves forward and `n` back undo each other move by move inside the class. -/
theorem iterate_back_of_keeps (h : mode.Keeps p) (n : Nat) :
    (advancePhase mode true)^[n] ((advancePhase mode false)^[n] p) = p := by
  induction n with
  | zero => rfl
  | succ n ih =>
    rw [Function.iterate_succ_apply, Function.iterate_succ_apply', advancePhase_back_of_keeps (iterate_keeps h false n),
      ih]

/-- From outside the class, all moves but the first forward and the last back undo each other. -/
theorem iterate_back_of_not_keeps (h : ¬ mode.Keeps p) (n : Nat) :
    (advancePhase mode true)^[n + 1] ((advancePhase mode false)^[n + 1] p) = p - 4 := by
  rw [Function.iterate_succ_apply', Function.iterate_succ_apply,
    iterate_back_of_keeps (advancePhase_keeps mode false p), advancePhase_back_of_not_keeps h]

/-- Moves forward and back, where `c` says that the phase is in the class. -/
theorem iterate_back_eq_ite {c : Prop} [Decidable c] (hc : c ↔ mode.Keeps p) (n : Nat) :
    (advancePhase mode true)^[n] ((advancePhase mode false)^[n] p) = if n = 0 ∨ c then p else p - 4 := by
  split
  · next h =>
    rcases h with rfl | hkeeps
    · rfl
    · exact iterate_back_of_keeps (hc.mp hkeeps) n
  · next h =>
    obtain ⟨hn, hkeeps⟩ := not_or.mp h
    obtain ⟨m, rfl⟩ := Nat.exists_eq_succ_of_ne_zero hn
    exact iterate_back_of_not_keeps (mt hc.mpr hkeeps) m

/-! ### Two commands in a row -/

theorem physicalSteps_respond_quiet {m : Nat} (rev : Bool) (h : s.Quiet (6 * (m + n))) :
    (respond 0 (physicalSteps mode rev d m s)).Quiet (6 * n) := by
  obtain ⟨hreset, hok⟩ := h
  refine ⟨by simpa using hreset, fun k hk => ?_⟩
  simpa [Nat.add_assoc] using hok (6 * m + k) (by omega)

/-- A counted command forward and then one back, of as many steps, where every write succeeds. -/
theorem counted_forward_back (hquiet : s.Quiet (12 * n)) (ht : t = runCommand [] (.counted mode false d n) s)
    (hu : u = t ∨ u = fullStrength t) :
    (runCommand [] (.counted mode true d' n) u).phase =
      (advancePhase mode true)^[n] ((advancePhase mode false)^[n] s.phase) := by
  obtain ⟨hreset, hok⟩ := hquiet
  rw [runCommand_counted ⟨hreset, BusOk_mono hok (by omega)⟩] at ht
  have htquiet : t.Quiet (6 * n) := by
    rw [ht]
    exact physicalSteps_respond_quiet false ⟨hreset, BusOk_mono hok (by omega)⟩
  have huquiet : u.Quiet (6 * n) := by rcases hu with rfl | rfl <;> exact htquiet
  have huphase : u.phase = t.phase := by rcases hu with rfl | rfl <;> rfl
  rw [runCommand_counted huquiet, respond_phase, physicalSteps_phase, huphase, ht, respond_phase, physicalSteps_phase]

/-- Settles O49: an even half-step index is what mode WHOLE keeps. -/
theorem stepRoundTrip : Obligations.StepRoundTrip := by
  intro n s t u hquiet hforward hback
  cases hforward
  cases hback
  exact (counted_forward_back (s := fullStrength s) hquiet rfl (.inr rfl)).trans
    (iterate_back_eq_ite (mode := .whole) (c := s.phase.toNat / 4 % 2 = 0) Iff.rfl n)

/-- Settles O50: an odd half-step index is what mode DOUBLE keeps. -/
theorem doubleStepRoundTrip : Obligations.DoubleStepRoundTrip := by
  intro n s t u hquiet hforward hback
  cases hforward
  cases hback
  exact (counted_forward_back (s := fullStrength s) hquiet rfl (.inr rfl)).trans
    (iterate_back_eq_ite (mode := .double) (c := s.phase.toNat / 4 % 2 = 1) Iff.rfl n)

/-- Settles O51: these modes keep every phase. -/
theorem interleavedAndMicroRoundTrip : Obligations.InterleavedAndMicroRoundTrip := by
  constructor
  · intro n s t u hquiet hforward hback
    cases hforward
    cases hback
    exact (counted_forward_back (s := fullStrength s) hquiet rfl (.inr rfl)).trans
      (iterate_back_of_keeps (mode := .interleave) trivial n)
  · intro n s t u hquiet hforward hback
    have hquiet' : s.Quiet (12 * (n * 8)) := by rwa [show 12 * (n * 8) = 96 * n by omega]
    cases hforward
    cases hback
    exact (counted_forward_back hquiet' rfl (.inl rfl)).trans
      (iterate_back_of_keeps (mode := .micro) trivial (n * 8))

end Sys2Proof.Machine
end

section
/-! PROOFS. The family 42_stepping, third part: what a stepping command that reports success has done to PHASE
(42_stepping R107, R108). -/

namespace Sys2Proof.Machine

variable {mode : Mode} {rev : Bool} {d : Rat} {loop : Loop} {s t : State} {before : List Output}

/-! ### Success means that every write succeeded -/

theorem code_ne_zero (e : ErrorKind) : e.code ≠ 0 := by cases e <;> decide

/-- A command that ended with an error does not report success. -/
theorem raise_out_ne_success (e : ErrorKind) (s : State) (before : List Output) :
    (raise e s).out ≠ before ++ [.response ((raise e s).responseWord 0)] := by
  intro hout
  obtain ⟨-, hlast⟩ := List.append_inj' hout rfl
  have hword : (raise e s).responseWord e.code = (raise e s).responseWord 0 :=
    Output.response.inj (List.head_eq_of_cons_eq hlast)
  have hcode : e.code = 0 := by
    rw [← responseWord_statusField e.code (raise e s), hword, responseWord_statusField]
  exact code_ne_zero e hcode

/-- Of the next `n` writes all succeed, or one is the first to fail. -/
theorem busOk_or_first_fail (n : Nat) (s : State) :
    s.BusOk n ∨ ∃ m left, m < n ∧ s.BusOk m ∧ s.answerAt (s.busDraws + m) = .fail left := by
  induction n with
  | zero => exact .inl fun k hk => absurd hk (Nat.not_lt_zero k)
  | succ n ih =>
    rcases ih with hok | ⟨m, left, hm, hfirst⟩
    · cases hn : s.answerAt (s.busDraws + n) with
      | ok => exact .inl fun k hk => (Nat.lt_succ_iff_lt_or_eq.mp hk).elim (hok k) fun hkn => hkn ▸ hn
      | fail left => exact .inr ⟨n, left, Nat.lt_succ_self n, hok, hn⟩
    · exact .inr ⟨m, left, hm.trans (Nat.lt_succ_self n), hfirst⟩

/-- A command that reports success had every write succeed: the first failing one would have ended it with BusError. -/
theorem quiet_of_success (h : loop.Makes mode rev d) (hreset : s.resetInput = none) (ht : t = runCommand [] loop s)
    (hout : t.out = before ++ [.response (t.responseWord 0)]) : s.Quiet (6 * loop.stepsLeft s.phase) := by
  refine ⟨hreset, (busOk_or_first_fail _ s).resolve_right ?_⟩
  rintro ⟨m, left, hm, hok, hfail⟩
  have hk : m % 6 < 6 := Nat.mod_lt m (by decide)
  rw [← Nat.div_add_mod m 6] at hok hfail
  obtain ⟨c, w, hwrite, -⟩ := stepEvents_write hk mode d (stepRegisters mode rev (physicalSteps mode rev d (m / 6) s))
  rw [ht, runCommand_stops h (by omega) hk hreset hok hfail, failedStep_eq left hwrite] at hout
  exact raise_out_ne_success _ _ _ hout

/-- So it ran every physical step of its loop. -/
theorem success_completes (h : loop.Makes mode rev d) (hreset : s.resetInput = none) (ht : t = runCommand [] loop s)
    (hout : t.out = before ++ [.response (t.responseWord 0)]) :
    t = respond 0 (physicalSteps mode rev d (loop.stepsLeft s.phase) s) :=
  ht.trans (runCommand_completes h rfl (quiet_of_success h hreset ht hout))

theorem success_phase (h : loop.Makes mode rev d) (hreset : s.resetInput = none) (ht : t = runCommand [] loop s)
    (hout : t.out = before ++ [.response (t.responseWord 0)]) :
    t.phase = (advancePhase mode rev)^[loop.stepsLeft s.phase] s.phase := by
  rw [success_completes h hreset ht hout, respond_phase, physicalSteps_phase]

/-! ### ALIGN_STEP -/

theorem alignStep_success (hreset : s.resetInput = none) (hexec : exec (.alignStep rev) s = .next t)
    (hout : t.out = before ++ [.response (t.responseWord 0)]) :
    t = respond 0 (physicalSteps .micro rev (s.sps / 8) (alignSteps rev s.phase.toNat) s) := by
  rw [exec_alignStep] at hexec
  exact success_completes (untilAligned_makes rev (s.sps / 8)) hreset (Host.Outcome.next.inj hexec).symm hout

theorem alignStep_success_aligned (hreset : s.resetInput = none) (hexec : exec (.alignStep rev) s = .next t)
    (hout : t.out = before ++ [.response (t.responseWord 0)]) : t.phase = 0 ∨ t.phase = 8 := by
  rw [alignStep_success hreset hexec hout, respond_phase, physicalSteps_phase]
  exact iterate_alignSteps_aligned rev s.phase

/-- From an aligned PHASE, ALIGN_STEP only responds. -/
theorem exec_alignStep_of_aligned (hidle : s.inProgress = none) (hreset : s.resetInput = none)
    (haligned : s.phase = 0 ∨ s.phase = 8) (rev : Bool) :
    exec (.alignStep rev) s = .next { s with out := s.out ++ [.response (s.responseWord 0)] } := by
  have hzero : alignSteps rev s.phase.toNat = 0 := (alignSteps_eq_zero_iff rev s.phase).mpr haligned
  rw [exec_alignStep_completes (hzero ▸ quiet_zero hreset), hzero, physicalSteps, respond_of_idle 0 hidle]

/-- Settles O52: success leaves the block idle at an aligned PHASE. -/
theorem alignIsIdempotent : Obligations.AlignIsIdempotent := by
  intro rev rev' s t before hreset hexec hout
  have haligned := alignStep_success_aligned hreset hexec hout
  have ht := alignStep_success hreset hexec hout
  have hidle : t.inProgress = none := by rw [ht, respond_inProgress]
  have htreset : t.resetInput = none := by rw [ht, respond_resetInput, physicalSteps_resetInput, hreset]
  exact ⟨haligned, exec_alignStep_of_aligned hidle htreset haligned rev'⟩

/-! ### The classes of PHASE -/

/-- A move of half a quadrant keeps PHASE mod 4. -/
theorem advancePhase_interleave_mod (rev : Bool) (p : BitVec 5) :
    (advancePhase .interleave rev p).toNat % 4 = p.toNat % 4 := by
  have hp := p.isLt
  rw [advancePhase_toNat]
  simp only [stepDistance, Config.M]
  split_ifs <;> omega

theorem iterate_interleave_mod (rev : Bool) (n : Nat) (p : BitVec 5) :
    ((advancePhase .interleave rev)^[n] p).toNat % 4 = p.toNat % 4 := by
  induction n with
  | zero => rfl
  | succ n ih => rw [Function.iterate_succ_apply', advancePhase_interleave_mod, ih]

/-- `n` microsteps move PHASE by `n`, modulo 8. -/
theorem iterate_micro_mod (rev : Bool) (n : Nat) (p : BitVec 5) :
    ((advancePhase .micro rev)^[n] p).toNat % 8 = (if rev then p.toNat + 7 * n else p.toNat + n) % 8 := by
  induction n with
  | zero => simp
  | succ n ih =>
    rw [Function.iterate_succ_apply', advancePhase_micro_toNat]
    cases rev with
    | false => simp only [Bool.false_eq_true, if_false] at ih ⊢; omega
    | true => simp only [if_true] at ih ⊢; omega

/-- Eight microsteps for each count keep PHASE mod 8. -/
theorem iterate_micro_mul_eight_mod (rev : Bool) (n : Nat) (p : BitVec 5) :
    ((advancePhase .micro rev)^[n * 8] p).toNat % 8 = p.toNat % 8 := by
  rw [iterate_micro_mod]
  split <;> omega

/-- From an aligned PHASE the next whole-step move is a long one for STEP and a short one for DOUBLE_STEP. -/
theorem stepDistance_of_aligned {p : BitVec 5} (h : p = 0 ∨ p = 8) :
    stepDistance .whole (halfStepIndex p) = 8 ∧ stepDistance .double (halfStepIndex p) = 4 := by
  rcases h with rfl | rfl <;> exact ⟨rfl, rfl⟩

/-- Settles O53: after success PHASE has moved once for each physical step, and each move keeps its mode's class. -/
theorem phaseClassesKept : Obligations.PhaseClassesKept := by
  intro count rev s t before hreset hout
  refine ⟨fun hexec hkeeps => ?_, fun hexec hkeeps => ?_, fun hexec => ?_, fun hexec => ?_, fun hexec => ?_⟩
  · rw [exec_step] at hexec
    rw [success_phase (s := fullStrength s) (counted_makes .whole rev s.sps count.toNat) hreset
      (Host.Outcome.next.inj hexec).symm hout]
    exact iterate_keeps (mode := .whole) hkeeps rev _
  · rw [exec_doubleStep] at hexec
    rw [success_phase (s := fullStrength s) (counted_makes .double rev s.sps count.toNat) hreset
      (Host.Outcome.next.inj hexec).symm hout]
    exact iterate_keeps (mode := .double) hkeeps rev _
  · rw [exec_interleavedStep] at hexec
    rw [success_phase (s := fullStrength s) (counted_makes .interleave rev (s.sps / 2) count.toNat) hreset
      (Host.Outcome.next.inj hexec).symm hout]
    exact iterate_interleave_mod rev _ s.phase
  · rw [exec_microStep] at hexec
    rw [success_phase (counted_makes .micro rev (s.sps / 8) (count.toNat * 8)) hreset
      (Host.Outcome.next.inj hexec).symm hout]
    exact iterate_micro_mul_eight_mod rev count.toNat s.phase
  · have haligned := alignStep_success_aligned hreset hexec hout
    exact ⟨haligned, stepDistance_of_aligned haligned⟩

end Sys2Proof.Machine
end

section
/-! PROOFS. The family 43_pin: SET_PIN where its one write succeeds, where that write fails (41_energize R92), and with
arguments it rejects (43_pin R120, 60_exceptions R132, R136, R137). -/

namespace Sys2Proof.Machine

variable {pin value : Nat} {c : Chan} {s : State}

theorem exec_setPin_bad (hbad : pin > 15 ∨ value > 1) (s : State) :
    exec (.setPin pin value) s = .next (raise .invalidArgument s) := by
  obtain ⟨t, hexec, -⟩ := exec_ends (.setPin pin value) s
  rcases exec_setPin_cases hexec with ⟨-, rfl⟩ | ⟨hlegal, -⟩
  · exact hexec
  · exact absurd hbad hlegal

theorem exec_setPin_legal (hpin : pin ≤ 15) (hvalue : value ≤ 1) (hc : c.val = pin) (s : State) :
    exec (.setPin pin value) s = .next (runCommand [pinWrite c (value = 1)] .finished s) := by
  have hchan : pinChan pin = c := Fin.ext (by simp [pinChan]; omega)
  obtain ⟨t, hexec, -⟩ := exec_ends (.setPin pin value) s
  rcases exec_setPin_cases hexec with ⟨hbad, -⟩ | ⟨-, rfl⟩
  · omega
  · rwa [hchan] at hexec

/-- The write that SET_PIN makes, with its window written out (41_energize R87). -/
theorem pinWrite_eq_write {w : Window} (hw : w = if value = 1 then ⟨4096, 0⟩ else ⟨0, 4096⟩) :
    pinWrite c (value = 1) = .write c w := by
  simp only [pinWrite, pinWindow, decide_eq_true_eq, hw]

/-- SET_PIN with a legal pin and value, whose write fails, ends in that write's BusError (41_energize R92). -/
theorem exec_setPin_fails {w left : Window} (hpin : pin ≤ 15) (hvalue : value ≤ 1) (hc : c.val = pin)
    (hw : w = if value = 1 then ⟨4096, 0⟩ else ⟨0, 4096⟩) (hreset : s.resetInput = none)
    (hfail : s.answerAt s.busDraws = .fail left) :
    exec (.setPin pin value) s = .next (raise .busError ((s.emit (.write c w)).countDraw.setChan c left)) := by
  rw [exec_setPin_legal hpin hvalue hc, pinWrite_eq_write hw]
  exact congrArg Host.Outcome.next (runTicks_failing_write c w left [] .finished 1 s hreset hfail)

/-- Settles O32: the one write lands, and the response follows it. -/
theorem setPinDrivesPin : Obligations.SetPinDrivesPin := by
  intro pin value s c w hpin hvalue hc hw hquiet
  have hanswer : respond 0 (land s (.write c w)) = { s with
      inProgress := none
      ch := s.ch.set c w
      busDraws := s.busDraws + 1
      out := s.out ++ [.event (.write c w)] ++ [.response (s.responseWord 0)] } := rfl
  rw [exec_setPin_lands hpin hvalue hc hquiet, pinWrite_eq_write hw, hanswer, List.append_assoc, List.singleton_append]

/-- Settles O33: InvalidArgument comes before any effect, and an idle block that takes an error changes FAULT only. -/
theorem setPinRejectsBadArguments : Obligations.SetPinRejectsBadArguments := fun _ _ s hidle hbad =>
  ⟨raise .invalidArgument s, exec_setPin_bad hbad s, raise_of_idle .invalidArgument hidle⟩

/-- Settles O37: the failed write's event and the window it leaves stand, and BusError's response follows. -/
theorem setPinBusError : Obligations.SetPinBusError := by
  intro pin value s c w left hpin hvalue hc hw hreset hfail
  refine ⟨_, exec_setPin_fails hpin hvalue hc hw hreset hfail, ?_⟩
  rw [← List.singleton_append, ← List.append_assoc]
  rfl

end Sys2Proof.Machine
end

section
/-! PROOFS. The family 44_status: GET_STATUS (44_status R125). -/

namespace Sys2Proof.Machine

theorem exec_getStatus (s : State) : exec .getStatus s = .next (respond 0 s) := rfl

/-- Settles O24: GET_STATUS only responds, and the response of an idle block changes nothing but the outputs. -/
theorem getStatusReports : Obligations.GetStatusReports := by
  intro s hidle
  rw [exec_getStatus, respond_of_idle 0 hidle]

end Sys2Proof.Machine
end

section
/-! PROOFS. The family 60_exceptions: which error each command reports (60_exceptions R130, R132 to R134), and the checks
of elaboration (60_exceptions R131, 00_scope R5 to R10). -/

namespace Sys2Proof.Machine

open Config (RawParams)

variable {i : Instr} {s t : State} {c d : BitVec 4} {p : RawParams}

/-! ### The status of the last response -/

/-- The last output of `t` is a response with status `c`, which carries the registers of `t` (30_encoding R67). -/
def Reports (c : BitVec 4) (t : State) : Prop := ∃ before, t.out = before ++ [.response (t.responseWord c)]

theorem respond_reports (c : BitVec 4) (s : State) : Reports c (respond c s) := ⟨s.out, rfl⟩

theorem raise_reports (e : ErrorKind) (s : State) : Reports e.code (raise e s) := ⟨s.out, rfl⟩

/-- A response tells its status. -/
theorem Reports.unique (hc : Reports c t) (hd : Reports d t) : c = d := by
  obtain ⟨before, hc⟩ := hc
  obtain ⟨before', hd⟩ := hd
  obtain ⟨-, hlast⟩ := List.append_inj' (hc.symm.trans hd) rfl
  have hword : t.responseWord c = t.responseWord d := Output.response.inj (List.head_eq_of_cons_eq hlast)
  rw [← responseWord_statusField c t, hword, responseWord_statusField]

/-! ### What a run can report -/

/-- No reset is coming, and a run that has ended reports success or BusError (60_exceptions R134). -/
structure RunStatus (s : State) : Prop where
  resetInput : s.resetInput = none
  ended      : s.inProgress = none → Reports 0 s ∨ Reports 4 s

theorem RunStatus.of_busy (hreset : s.resetInput = none) (hbusy : s.inProgress ≠ none) : RunStatus s :=
  ⟨hreset, fun hidle => absurd hidle hbusy⟩

/-- A run ends in the response with status 0 or in a failed write. -/
theorem RunStatus.tick (hbusy : s.inProgress ≠ none) (h : RunStatus s) : RunStatus (tick s) := by
  obtain ⟨q, hq⟩ := Option.ne_none_iff_exists'.mp hbusy
  have hreset := h.resetInput
  rw [tick_noReset hreset]
  rcases act_cases hq with ⟨e, es, -, ha⟩ | ⟨ch, w, left, es, -, ha⟩ | ⟨mode, rev, dwell, loop', -, -, ha⟩ |
    ⟨-, -, ha⟩ <;> rw [ha]
  · exact .of_busy (by simpa using hreset) (by simp)
  · exact ⟨hreset, fun _ => .inr (raise_reports .busError _)⟩
  · exact .of_busy (by simpa [beginStep] using hreset) (by simp [beginStep])
  · exact ⟨hreset, fun _ => .inl (respond_reports 0 s)⟩

theorem runCommand_reports (hreset : s.resetInput = none) (pending : List Event) (loop : Loop) :
    Reports 0 (runCommand pending loop s) ∨ Reports 4 (runCommand pending loop s) :=
  have start : RunStatus (s.setProgress (some ⟨pending, loop⟩)) := .of_busy hreset (by simp)
  (runToEnd_induct (fun _ hbusy h => h.tick hbusy) _ start).ended (runCommand_inProgress pending loop s)

/-! ### What each command can report -/

/-- SET_PIN with a pin or a value outside its range (43_pin R120). -/
def BadSetPin (i : Instr) : Prop := ∃ pin value, i = .setPin pin value ∧ (pin > 15 ∨ value > 1)

/-- The statuses that a command can report, each with its cause (60_exceptions R130, R132 to R134). -/
inductive CanReport (i : Instr) : BitVec 4 → Prop
  | success : ¬ BadSetPin i → i ≠ .setSpeed 0 → CanReport i 0
  | invalidArgument : BadSetPin i → CanReport i 2
  | divisionFault : i = .setSpeed 0 → CanReport i 3
  | busError : ¬ BadSetPin i → writesChannels i = true → CanReport i 4

/-- A command that writes channels, once its arguments have passed, reports what its run does. -/
theorem canReport_of_run (hbad : ¬ BadSetPin i) (hwrites : writesChannels i = true) (h : Reports 0 t ∨ Reports 4 t) :
    ∃ c, CanReport i c ∧ Reports c t := by
  rcases h with h | h
  · exact ⟨0, .success hbad (by rintro rfl; cases hwrites), h⟩
  · exact ⟨4, .busError hbad hwrites, h⟩

theorem writesChannels_of_isStepping (h : isStepping i = true) : writesChannels i = true := by
  cases i with
  | getStatus => cases h
  | setSpeed rpm => cases h
  | step count rev => rfl
  | doubleStep count rev => rfl
  | interleavedStep count rev => rfl
  | microStep count rev => rfl
  | alignStep rev => rfl
  | setPin pin value => rfl

theorem exec_stepping_reports (hi : isStepping i = true) (hreset : s.resetInput = none) (h : exec i s = .next t) :
    Reports 0 t ∨ Reports 4 t := by
  obtain ⟨loop, u, hrun, hu, -⟩ := exec_stepping hi s
  cases hrun.symm.trans h
  exact runCommand_reports (by rcases hu with rfl | rfl <;> exact hreset) [] loop

theorem exec_setSpeed_reports {rpm : Nat} (h : exec (.setSpeed rpm) s = .next t) :
    ∃ c, CanReport (.setSpeed rpm) c ∧ Reports c t := by
  by_cases hrpm : rpm = 0
  · subst hrpm
    cases (exec_setSpeed_zero s).symm.trans h
    exact ⟨3, .divisionFault rfl, raise_reports .divisionFault s⟩
  · cases (exec_setSpeed_of_ne_zero hrpm s).symm.trans h
    exact ⟨0, .success (by rintro ⟨_, _, ⟨⟩, -⟩) (by simpa using hrpm), respond_reports 0 _⟩

theorem exec_setPin_reports {pin value : Nat} (hreset : s.resetInput = none)
    (h : exec (.setPin pin value) s = .next t) : ∃ c, CanReport (.setPin pin value) c ∧ Reports c t := by
  rcases exec_setPin_cases h with ⟨hbad, rfl⟩ | ⟨hlegal, rfl⟩
  · exact ⟨2, .invalidArgument ⟨pin, value, rfl, hbad⟩, raise_reports .invalidArgument s⟩
  · exact canReport_of_run (by rintro ⟨_, _, ⟨⟩, hbad⟩; exact hlegal hbad) rfl (runCommand_reports hreset _ _)

/-- With no reset coming, every command reports a status that has its cause. -/
theorem exec_reports (hreset : s.resetInput = none) (h : exec i s = .next t) : ∃ c, CanReport i c ∧ Reports c t := by
  by_cases hi : isStepping i = true
  · exact canReport_of_run (by rintro ⟨_, _, rfl, -⟩; cases hi) (writesChannels_of_isStepping hi)
      (exec_stepping_reports hi hreset h)
  · cases i with
    | getStatus =>
      cases (exec_getStatus s).symm.trans h
      exact ⟨0, .success (by rintro ⟨_, _, ⟨⟩, -⟩) nofun, respond_reports 0 s⟩
    | setSpeed rpm => exact exec_setSpeed_reports h
    | setPin pin value => exact exec_setPin_reports hreset h
    | step count rev => exact absurd rfl hi
    | doubleStep count rev => exact absurd rfl hi
    | interleavedStep count rev => exact absurd rfl hi
    | microStep count rev => exact absurd rfl hi
    | alignStep rev => exact absurd rfl hi

/-- Settles O39: the last response tells its status, and each status a command can report excludes the causes of the
others. -/
theorem errorCauses : Obligations.ErrorCauses := by
  intro i s t before status hreset hexec hout
  obtain ⟨c, hcause, hreports⟩ := exec_reports hreset hexec
  obtain rfl : c = status := hreports.unique ⟨before, hout⟩
  cases hcause with
  | success hbad hspeed => exact ⟨iff_of_false (by decide) hbad, iff_of_false (by decide) hspeed, nofun, .inl rfl⟩
  | invalidArgument hbad =>
    have hspeed : i ≠ .setSpeed 0 := by rintro rfl; obtain ⟨_, _, ⟨⟩, -⟩ := hbad
    exact ⟨iff_of_true rfl hbad, iff_of_false (by decide) hspeed, nofun, .inr (.inl rfl)⟩
  | divisionFault hspeed =>
    have hbad : ¬ BadSetPin i := by rintro ⟨_, _, rfl, -⟩; cases hspeed
    exact ⟨iff_of_false (by decide) hbad, iff_of_true rfl hspeed, nofun, .inr (.inr (.inl rfl))⟩
  | busError hbad hwrites =>
    have hspeed : i ≠ .setSpeed 0 := by rintro rfl; cases hwrites
    exact ⟨iff_of_false (by decide) hbad, iff_of_false (by decide) hspeed, fun _ => hwrites, .inr (.inr (.inr rfl))⟩

/-! ### The laws of the parameters -/

theorem motorIdLegal_iff {id : Int} : motorIdLegal id = true ↔ id = 1 ∨ id = 2 := decide_eq_true_iff

theorem stepsLegal_iff {steps : Int} : stepsLegal steps = true ↔ 1 ≤ steps := decide_eq_true_iff

theorem microstepsLegal_iff {m : Int} : microstepsLegal m = true ↔ m % 2 = 0 ∧ 2 ≤ m := decide_eq_true_iff

theorem curveLegal_iff {m : Int} {curve : List Int} : curveLegal m curve = true ↔
    (curve.length : Int) = m + 1 ∧ (∀ v ∈ curve, 0 ≤ v ∧ v ≤ 255) ∧
      curve[0]? = some 0 ∧ curve[4]? = some 180 ∧ curve[8]? = some 255 := by
  simp only [curveLegal, Bool.and_eq_true, decide_eq_true_iff, List.all_eq_true, and_assoc]

theorem wiringLegal_iff {w1 w2 : List Int} : wiringLegal w1 w2 = true ↔
    w1.length = 6 ∧ w2.length = 6 ∧ (∀ c ∈ w1 ++ w2, 0 ≤ c ∧ c ≤ 15) ∧ (w1 ++ w2).Nodup := by
  simp only [wiringLegal, Bool.and_eq_true, decide_eq_true_iff, List.all_eq_true, and_assoc]

theorem sps0Legal_iff {q : Rat} : sps0Legal q = true ↔ 0 < q := decide_eq_true_iff

/-! ### Elaboration -/

/-- Elaboration has two answers (60_exceptions R131). -/
theorem elaborate_cases (p : RawParams) : elaborate p = .ok p ∨ elaborate p = .error .invalidConfiguration := by
  unfold elaborate
  split
  · exact .inl rfl
  · exact .inr rfl

theorem elaborate_eq_error_iff : elaborate p = .error .invalidConfiguration ↔ ¬ elaborate p = .ok p := by
  rcases elaborate_cases p with h | h <;> simp [h]

/-- Elaboration accepts the parameters that meet every law of their own (00_scope R5 to R10). -/
theorem elaborate_eq_ok_iff : elaborate p = .ok p ↔
    motorIdLegal p.motorId = true ∧ stepsLegal p.steps = true ∧ microstepsLegal p.m = true ∧
      curveLegal p.m p.curve = true ∧ wiringLegal p.wiring1 p.wiring2 = true ∧ sps0Legal p.sps0 = true := by
  simp only [elaborate, ite_eq_left_iff, reduceCtorEq, imp_false, not_not, Bool.and_eq_true, and_assoc]

/-- Settles O57: elaboration refuses what it does not accept, and a parameter is outside its law where the law fails. -/
theorem elaborationChecksParameters : Obligations.ElaborationChecksParameters := by
  intro p
  refine ⟨?_, (elaborate_cases p).resolve_right⟩
  rw [elaborate_eq_error_iff, elaborate_eq_ok_iff, motorIdLegal_iff, stepsLegal_iff, microstepsLegal_iff,
    curveLegal_iff, wiringLegal_iff, sps0Legal_iff]
  simp only [not_and_or, or_assoc, not_le, not_lt, not_forall, exists_prop, ne_eq]

/-! ### This block's own parameters -/

theorem raw_motorIdLegal : motorIdLegal Config.raw.motorId = true := by
  rw [motorIdLegal_iff, Config.raw]
  cases Config.motorId with
  | one => exact .inl rfl
  | two => exact .inr rfl

theorem raw_stepsLegal : stepsLegal Config.raw.steps = true :=
  stepsLegal_iff.mpr (Int.ofNat_le.mpr Config.stepsPerRev.pos)

/-- A byte is in [0,255], and the source fixes the entries 0, 4 and 8 (00_scope R6). -/
theorem raw_curveLegal : curveLegal Config.raw.m Config.raw.curve = true := by
  refine curveLegal_iff.mpr ⟨rfl, fun v hv => ?_, rfl, rfl, rfl⟩
  obtain ⟨k, -, rfl⟩ := List.mem_map.mp hv
  have := (Config.curve k).isLt
  omega

/-- The twelve channels are the images of the signals 0 to 11 under the wiring permutation (00_scope R9). -/
theorem raw_wiring : Config.raw.wiring1 ++ Config.raw.wiring2 =
    ([0, 1, 2, 3, 4, 5, 6, 7, 8, 9, 10, 11] : List Chan).map fun k => ((Config.wiringPerm k).val : Int) := rfl

theorem wiringPerm_val_injective : Function.Injective fun k => ((Config.wiringPerm k).val : Int) :=
  Nat.cast_injective.comp (Fin.val_injective.comp Config.wiringPerm.injective)

/-- A channel is in [0,15], and a permutation keeps distinct signals apart (00_scope R9). -/
theorem raw_wiringLegal : wiringLegal Config.raw.wiring1 Config.raw.wiring2 = true := by
  rw [wiringLegal_iff, raw_wiring]
  refine ⟨rfl, rfl, fun v hv => ?_, List.Nodup.map wiringPerm_val_injective (by decide)⟩
  obtain ⟨k, -, rfl⟩ := List.mem_map.mp hv
  have := (Config.wiringPerm k).isLt
  omega

/-- Settles O58: each open parameter is of a type that holds its law. -/
theorem ownParametersAreLegal : Obligations.OwnParametersAreLegal :=
  elaborate_eq_ok_iff.mpr ⟨raw_motorIdLegal, raw_stepsLegal, by decide, raw_curveLegal, raw_wiringLegal,
    sps0Legal_iff.mpr sps0_pos⟩

end Sys2Proof.Machine
end

section
/-! PROOFS. The family 70_reset_and_hazards, first part: the reset values, a reset that is due, and a reset that strikes
inside a command (70_reset_and_hazards R150 to R152). -/

namespace Sys2Proof.Machine

variable {mode : Mode} {rev : Bool} {d : Rat} {loop : Loop} {left : Window} {s : State}

/-! ### Reset values -/

/-- Settles O12: each conjunct is a field of `State.reset`. -/
theorem resetValues : Obligations.ResetValues :=
  ⟨rfl, rfl, rfl, rfl, rfl, rfl, rfl, fun c => Vector.getElem_ofFn c.isLt⟩

/-- A reset of a block just powered up changes nothing. -/
theorem resetNow_reset (left : Window) : resetNow left State.reset = State.reset := rfl

/-- Settles O46: power-up leaves the block as a reset does, and every reset establishes the invariant. -/
theorem invariantAtReset : Obligations.InvariantAtReset := resetNow_machineInv default State.reset

/-! ### A reset that is due -/

theorem step_reset (h : s.resetInput = some ⟨0, left⟩) : step s = .next (resetNow left s) := by simp [step, h]

theorem resetNow_ch_of_noWrite (h : s.writeInFlight = none) : (resetNow left s).ch = s.ch := by
  rw [resetNow_noWrite left h]
  rfl

theorem resetNow_ch_of_cutWrite {c : Chan} (h : s.writeInFlight = some c) :
    (resetNow left s).ch = s.ch.set c left := by
  rw [resetNow_cutWrite left h]
  rfl

theorem resetNow_chan_of_cutWrite {c : Chan} (h : s.writeInFlight = some c) : (resetNow left s).chan c = left := by
  rw [resetNow_cutWrite left h]
  exact setChan_chan_self s c left

theorem writeInFlight_idle (h : s.inProgress = none) : s.writeInFlight = none := by simp [State.writeInFlight, h]

/-- Settles O13, by whether the channel is the one whose write the reset cuts off. -/
theorem resetStrikes : Obligations.ResetStrikes := by
  intro s left hdue
  refine ⟨resetNow left s, step_reset hdue, rfl, rfl, rfl, rfl, rfl, rfl, rfl, rfl, rfl,
    fun hidle => resetNow_ch_of_noWrite (writeInFlight_idle hidle), fun c => ?_⟩
  by_cases hcut : s.writeInFlight = some c
  · exact .inr ⟨resetNow_chan_of_cutWrite hcut, writeInFlight_eq_some hcut⟩
  · exact .inl (resetNow_chan_ne left hcut)

/-! ### A reset inside SET_PIN -/

/-- A reset that is due when a command begins its first event cuts that event off. -/
theorem runCommand_reset (h : s.resetInput = some ⟨0, left⟩) (pending : List Event) (loop : Loop) :
    runCommand pending loop s = resetNow left (s.setProgress (some ⟨pending, loop⟩)) := by
  rw [runCommand_eq, runTicks_busy _ (setProgress_inProgress s _), tick_reset (by simpa using h),
    runTicks_idle _ (resetNow_inProgress left _)]

/-- Settles O59: taking the word is the one action before the reset, so SET_PIN's write is the event cut off. -/
theorem resetCutsSetPinWrite : Obligations.ResetCutsSetPinWrite := by
  intro s w rest pin value c left hreset hbus hidle htake hdec hpin hvalue hc
  have hcount : ({ s with rx := rest } : State).countAction.resetInput = some ⟨0, left⟩ := by
    simp [State.countAction, hreset]
  have hstep := (step_awake (by simp [hreset])).trans (stepAwake_command hbus hidle htake hdec)
  rw [exec_setPin_legal hpin hvalue hc, runCommand_reset hcount] at hstep
  refine ⟨_, hstep, rfl, rfl, rfl, rfl, rfl, rfl, rfl, rfl, rfl, ?_⟩
  rw [resetNow_ch_of_cutWrite rfl, setProgress_ch, countAction_ch]

/-! ### A run with the coming reset left out -/

/-- The host's coming reset replaced. -/
def State.setResetInput (r : Option ResetInput) (s : State) : State := { s with resetInput := r }

@[simp] theorem setResetInput_chan (r : Option ResetInput) (s : State) (c : Chan) :
    (s.setResetInput r).chan c = s.chan c := rfl

theorem perform_setResetInput (r : Option ResetInput) (e : Event) (s : State) :
    perform e (s.setResetInput r) = (perform e s).setResetInput r := by
  cases e with
  | dwell d => rfl
  | write c w =>
    have hanswer : (s.setResetInput r).answerAt (s.setResetInput r).busDraws = s.answerAt s.busDraws := rfl
    rw [perform, perform]
    cases ha : s.answerAt s.busDraws with
    | ok => rw [chanWrite_ok c w ha, chanWrite_ok c w (hanswer.trans ha)]; rfl
    | fail left => rw [chanWrite_fail c w left ha, chanWrite_fail c w left (hanswer.trans ha)]; rfl

theorem stepRegisters_setResetInput (mode : Mode) (rev : Bool) (r : Option ResetInput) (s : State) :
    stepRegisters mode rev (s.setResetInput r) = (stepRegisters mode rev s).setResetInput r := by cases mode <;> rfl

theorem continueLoop_setResetInput (r : Option ResetInput) (loop : Loop) (s : State) :
    continueLoop loop (s.setResetInput r) = (continueLoop loop s).setResetInput r := by
  rcases hn : loop.next s.phase with _ | ⟨mode, rev, d, loop'⟩
  · rw [continueLoop_end hn, continueLoop_end (s := s.setResetInput r) hn]
    rfl
  · rw [continueLoop_begin hn, continueLoop_begin (s := s.setResetInput r) hn, beginStep, stepRegisters_setResetInput]
    rfl

/-- An action neither reads nor changes the coming reset. -/
theorem act_setResetInput (r : Option ResetInput) (s : State) :
    act (s.setResetInput r) = (act s).setResetInput r := by
  rcases hp : s.inProgress with _ | ⟨_ | ⟨e, es⟩, loop⟩
  · rw [act_idle hp, act_idle (s := s.setResetInput r) hp]
  · rw [act_loop hp, act_loop (s := s.setResetInput r) hp]
    exact continueLoop_setResetInput r loop s
  · rw [act_pending hp, act_pending (s := s.setResetInput r) hp]
    exact perform_setResetInput r e (s.setProgress (some ⟨es, loop⟩))

/-- A run in which a reset strikes after `n` actions: it resets what those actions, with no reset coming, have left. -/
theorem runTicks_reset {n : Nat} (hreset : s.resetInput = some ⟨n, left⟩)
    (hbusy : (runTicks n (s.setResetInput none)).inProgress ≠ none) (fuel : Nat) :
    runTicks (n + 1 + fuel) s = resetNow left (runTicks n (s.setResetInput none)) := by
  induction n generalizing s with
  | zero =>
    obtain ⟨p, hp⟩ := Option.ne_none_iff_exists'.mp hbusy
    rw [show 0 + 1 + fuel = fuel + 1 by omega, runTicks_busy fuel (s := s) hp, tick_reset hreset,
      runTicks_idle _ (resetNow_inProgress left s)]
    rfl
  | succ n ih =>
    rcases hp : s.inProgress with _ | p
    · rw [runTicks_idle _ (show (s.setResetInput none).inProgress = none from hp)] at hbusy
      exact absurd hp hbusy
    · have hquiet : runTicks (n + 1) (s.setResetInput none) = runTicks n ((act s).setResetInput none) := by
        rw [runTicks_busy n (s := s.setResetInput none) hp, tick_noReset rfl, act_setResetInput]
      have htick : tick s = (act s).setResetInput (some ⟨n, left⟩) :=
        (tick_countdown hreset).trans (act_setResetInput _ s)
      rw [hquiet] at hbusy ⊢
      rw [show n + 1 + 1 + fuel = (n + 1 + fuel) + 1 by omega, runTicks_busy _ hp, htick]
      exact ih (s := (act s).setResetInput (some ⟨n, left⟩)) rfl hbusy

theorem foldl_land_setResetInput (r : Option ResetInput) (es : List Event) (s : State) :
    es.foldl land (s.setResetInput r) = (es.foldl land s).setResetInput r := by
  induction es generalizing s with
  | nil => rfl
  | cons e es ih =>
    have hland : land (s.setResetInput r) e = (land s e).setResetInput r := by cases e <;> rfl
    rw [List.foldl_cons, hland, ih]
    rfl

theorem partialStep_setResetInput (mode : Mode) (rev : Bool) (d : Rat) (k : Nat) (r : Option ResetInput) (s : State) :
    partialStep mode rev d k (s.setResetInput r) = (partialStep mode rev d k s).setResetInput r := by
  rw [partialStep, stepRegisters_setResetInput]
  exact foldl_land_setResetInput r _ _

theorem physicalSteps_setResetInput (mode : Mode) (rev : Bool) (d : Rat) (n : Nat) (r : Option ResetInput) (s : State) :
    physicalSteps mode rev d n (s.setResetInput r) = (physicalSteps mode rev d n s).setResetInput r := by
  induction n generalizing s with
  | zero => rfl
  | succ n ih =>
    rw [physicalSteps, physicalStep, partialStep_setResetInput, ih]
    rfl

/-! ### A physical step in progress -/

theorem writeCount_take_le (k : Nat) (es : List Event) : writeCount (es.take k) ≤ writeCount es :=
  ((List.take_sublist k es).filter _).length_le

/-- After its start and `k` events, a physical step has those events behind it and the others to come. -/
theorem runTicks_partialStep {loop' : Loop} {k : Nat} (hk : k ≤ 7)
    (hn : loop.next s.phase = some (mode, rev, d, loop')) (hreset : s.resetInput = none) (hok : s.BusOk 6) :
    runTicks (1 + k) (s.setProgress (some ⟨[], loop⟩)) =
      (partialStep mode rev d k s).setProgress
        (some ⟨(stepEvents mode d (stepRegisters mode rev s)).drop k, loop'⟩) := by
  have hlen : ((stepEvents mode d (stepRegisters mode rev s)).take k).length = k := by
    rw [List.length_take, stepEvents_length]; omega
  have hcount := writeCount_take_le k (stepEvents mode d (stepRegisters mode rev s))
  have hevents := runTicks_events ((stepEvents mode d (stepRegisters mode rev s)).take k)
    ((stepEvents mode d (stepRegisters mode rev s)).drop k) loop' 0 (stepRegisters mode rev s) (by simpa using hreset)
    (fun i hi => by simpa using hok i (hi.trans_le hcount))
  rw [List.take_append_drop, hlen] at hevents
  rw [Nat.add_comm, runTicks_busy _ (setProgress_inProgress s _), tick_noReset (by simpa using hreset), act_loop rfl,
    continueLoop_begin (by simpa using hn), beginStep_setProgress]
  exact hevents

/-- The next write of a physical step, by how many of its events it has made. -/
theorem writeInFlight_stepEvents {k : Nat} (hk : k < 7) (mode : Mode) (d : Rat) (x s : State) (loop : Loop) :
    (x.setProgress (some ⟨(stepEvents mode d s).drop k, loop⟩)).writeInFlight = motorChans[k]? := by
  interval_cases k <;> rfl

/-! ### A reset inside a stepping command -/

/-- `x` is where a command that runs physical steps from `s` stands after `8*j + r` of its actions: `j` whole steps are
done, and of the next one the start and `r - 1` events, or nothing for `r = 0`. -/
structure StandsAt (mode : Mode) (rev : Bool) (d : Rat) (j r : Nat) (s x : State) : Prop where
  busy  : x.inProgress ≠ none
  write : ∀ c, x.writeInFlight = some c ↔ motorChans[r - 1]? = some c ∧ 1 ≤ r
  chan  : ∀ c, x.chan c = (partialStep mode rev d (r - 1) (physicalSteps mode rev d j s)).chan c

/-- A run whose writes all succeed stands, after `8*j + r` actions, where its steps put it. -/
theorem runTicks_standsAt {j r : Nat} (h : loop.Makes mode rev d) (hr : r < 8)
    (hlast : 8 * j + r < 8 * loop.stepsLeft s.phase + 1) (hreset : s.resetInput = none)
    (hok : s.BusOk (6 * loop.stepsLeft s.phase)) :
    StandsAt mode rev d j r s (runTicks (8 * j + r) (s.setProgress (some ⟨[], loop⟩))) := by
  obtain ⟨loop', h', hleft, hrun⟩ := runTicks_steps (n := j) h (by omega) hreset (BusOk_mono hok (by omega))
  rw [hrun]
  cases r with
  | zero =>
    exact ⟨by simp, fun c => by simp [State.writeInFlight], fun c => by simp [partialStep]⟩
  | succ k =>
    obtain ⟨loop'', hnext, -⟩ := h'.next (by omega : 0 < loop'.stepsLeft (physicalSteps mode rev d j s).phase)
    have hok' : (physicalSteps mode rev d j s).BusOk 6 := fun i hi => by
      simpa [Nat.add_assoc] using hok (6 * j + i) (by omega)
    rw [Nat.add_comm k 1, runTicks_partialStep (by omega) hnext (by simpa using hreset) hok']
    refine ⟨by simp, fun c => ?_, fun c => by simp⟩
    rw [writeInFlight_stepEvents (by omega)]
    simp

/-- A reset where the command stands abandons it (70_reset_and_hazards R152). -/
theorem StandsAt.abandoned {j r : Nat} {x : State} (h : StandsAt mode rev d j r s x) (left : Window) :
    AbandonedAt mode rev d j r left s (.next (resetNow left x)) := by
  refine ⟨resetNow left x, rfl, rfl, rfl, rfl, rfl, rfl, rfl, rfl, fun c => ⟨fun hcut => ?_, fun hcut => ?_⟩⟩
  · exact resetNow_chan_of_cutWrite ((h.write c).mpr hcut)
  · exact (resetNow_chan_ne left (mt (h.write c).mp hcut)).trans (h.chan c)

/-- Where a command stands does not depend on a coming reset. -/
theorem StandsAt.of_setResetInput {j r : Nat} {x : State} {i : Option ResetInput}
    (h : StandsAt mode rev d j r (s.setResetInput i) x) : StandsAt mode rev d j r s x where
  busy := h.busy
  write := h.write
  chan c := by
    have hchan := h.chan c
    rwa [physicalSteps_setResetInput, partialStep_setResetInput, setResetInput_chan] at hchan

/-- A reset that strikes a command after any number of its actions abandons it there. -/
theorem runCommand_abandoned {j r : Nat} (h : loop.Makes mode rev d) (hreset : s.resetInput = some ⟨8 * j + r, left⟩)
    (hr : r < 8) (hok : s.BusOk (6 * loop.stepsLeft s.phase)) (hlast : 8 * j + r < 8 * loop.stepsLeft s.phase + 1) :
    AbandonedAt mode rev d j r left s (.next (runCommand [] loop s)) := by
  have hstands := runTicks_standsAt (s := s.setResetInput none) h hr hlast rfl hok
  have hbound := loop.stepsLeft_le_bound s.phase
  have hfuel : ([] : List Event).length + 8 * loop.bound + 1 = 8 * j + r + 1 + (8 * loop.bound - (8 * j + r)) := by
    rw [List.length_nil]; omega
  rw [runCommand_eq, hfuel, runTicks_reset (s := s.setProgress (some ⟨[], loop⟩)) hreset hstands.busy]
  exact hstands.of_setResetInput.abandoned left

theorem runCommand_counted_abandoned {j r n : Nat} (hreset : s.resetInput = some ⟨8 * j + r, left⟩) (hr : r < 8)
    (hok : s.BusOk (6 * n)) (hlast : 8 * j + r < 8 * n + 1) :
    AbandonedAt mode rev d j r left s (.next (runCommand [] (.counted mode rev d n) s)) :=
  runCommand_abandoned (counted_makes mode rev d n) hreset hr hok hlast

/-- Settles O14: until it strikes, a coming reset leaves the run as it would be without, and each of the five commands
is a run of physical steps. -/
theorem resetAbandonsStep : Obligations.ResetAbandonsStep := by
  intro count rev s j r left hreset hr
  refine ⟨fun hok hlast => ⟨?_, ?_, ?_⟩, fun hok hlast => ?_, fun hok hlast => ?_⟩
  · rw [exec_step]
    exact runCommand_counted_abandoned (s := fullStrength s) hreset hr hok hlast
  · rw [exec_doubleStep]
    exact runCommand_counted_abandoned (s := fullStrength s) hreset hr hok hlast
  · rw [exec_interleavedStep]
    exact runCommand_counted_abandoned (s := fullStrength s) hreset hr hok hlast
  · rw [exec_microStep]
    exact runCommand_counted_abandoned hreset hr hok hlast
  · rw [exec_alignStep]
    exact runCommand_abandoned (untilAligned_makes rev (s.sps / 8)) hreset hr hok hlast

end Sys2Proof.Machine
end

section
/-! PROOFS. The family 70_reset_and_hazards, second part: the motor pins between two events of a physical step
(70_reset_and_hazards R157, 41_energize R88). -/

namespace Sys2Proof.Machine

variable {mode : Mode} {rev : Bool} {d : Rat} {s : State} {c : Chan} {w : Window} {i k : Nat}

/-- A channel whose write is among the first `k` events of a physical step holds what it writes. -/
theorem partialStep_chan_written (hi : (stepEvents mode d (stepRegisters mode rev s))[i]? = some (.write c w))
    (hik : i < k) : (partialStep mode rev d k s).chan c = w := by
  have hnodup := (stepEvents_chans_nodup mode d (stepRegisters mode rev s)).sublist
    ((List.take_sublist k _).filterMap Event.chan?)
  have hmem : Event.write c w ∈ (stepEvents mode d (stepRegisters mode rev s)).take k :=
    List.mem_of_getElem? ((List.getElem?_take_of_lt hik).trans hi)
  exact foldl_land_chan_of_mem hnodup hmem _

/-- A channel whose write comes after the first `k` events of a physical step is as it was before the step. -/
theorem partialStep_chan_unwritten (hi : (stepEvents mode d (stepRegisters mode rev s))[i]? = some (.write c w))
    (hki : k ≤ i) : (partialStep mode rev d k s).chan c = s.chan c := by
  have hnodup := stepEvents_chans_nodup mode d (stepRegisters mode rev s)
  rw [← List.take_append_drop k (stepEvents mode d (stepRegisters mode rev s)), List.filterMap_append] at hnodup
  have hmem : Event.write c w ∈ (stepEvents mode d (stepRegisters mode rev s)).drop k :=
    List.mem_of_getElem? (i := i - k) (by rwa [List.getElem?_drop, Nat.add_sub_cancel' hki])
  have hlater : c ∈ ((stepEvents mode d (stepRegisters mode rev s)).drop k).filterMap Event.chan? :=
    List.mem_filterMap.mpr ⟨_, hmem, rfl⟩
  have hnot := fun hsooner => (List.disjoint_of_nodup_append hnodup) hsooner hlater
  exact (foldl_land_chan_of_notMem hnot _).trans (stepRegisters_chan mode rev s c)

/-- Settles O55: events 3 and 4 drive AIN2 and BIN1, and AIN1 and BIN2 keep their windows until events 5 and 6. -/
theorem transientPins : Obligations.TransientPins := by
  intro mode rev d n k s ⟨hreset, hok⟩ mid coil
  have hmid : k < 6 → ∀ c, mid.chan c = (partialStep mode rev d k s).chan c := fun hk c => by
    rw [show mid = _ from runTicks_partialStep (by omega) rfl hreset hok, setProgress_chan]
  refine ⟨fun hain1 hain2 h3 h5 => ?_, fun hbin2 hbin1 h4 h6 => ?_⟩
  · rw [hmid (by omega), hmid (by omega), ← hain2]
    exact ⟨partialStep_chan_written (i := 2) rfl (by omega),
      (partialStep_chan_unwritten (i := 4) rfl (by omega)).trans (by rw [hain1, hain2])⟩
  · rw [hmid (by omega), hmid (by omega), ← hbin1]
    exact ⟨partialStep_chan_written (i := 3) rfl (by omega),
      (partialStep_chan_unwritten (i := 5) rfl (by omega)).trans (by rw [hbin2, hbin1])⟩

end Sys2Proof.Machine
end
